-- ==== Sys2Proof/Word.lean ====
section
/-! DEFINITION. The unit of every datum (the byte) and the configuration's opaque type of the transport's failure value. -/

namespace Sys2Proof

/-- "The unit of every datum is the byte: 8 bits, unsigned, values 0 to 255." (00_scope.md R8) -/
abbrev Byte := BitVec 8

/-- Which failure values the transport's failure type has besides the one it has at least: configuration without a
body, so that no proof can see how many there are (00_scope.md R9, 10_state.md R42; log entry 2, safe). -/
opaque Config.isFailureValue : Nat → Bool

/-- `TErr`, the configuration's type of the transport's failure value (00_scope.md R9): "the block never inspects it and
passes it on unchanged". It is the parameter `E` of the state, the responses, the answers and the events, and of every
meaning and operation over them (10_state.md R41); this is the one type the machine is run at, as opaque as
`Config.isFailureValue`: it may have one value, finitely many, or infinitely many (log entry 2). The tag names a value
so that states can be compared and written out; no definition of the machine looks at it. -/
structure TErr where
  tag : Nat
  mem : tag = 0 ∨ Config.isFailureValue tag = true
  deriving DecidableEq, Repr

end Sys2Proof
end

