-- ==== Sys2Proof/Syntax.lean ====
section
/-! DEFINITION. The encodings' abstract forms: requests (F-REQ), the instructions of spec/opcode_table.json,
pseudo-requests, responses (F-RESP), transport calls, answers and trace events, and the moves of the three agents. -/

namespace Sys2Proof

/-- F-REQ (30_encoding.md R70): "A request is a pair `(op, data)`. `op` is a 2-bit field `op[1:0]`, and `data` is a
finite byte list". -/
structure Request where
  op   : BitVec 2
  data : List Byte
  deriving DecidableEq, Repr, Inhabited

/-- A program is a sequence of requests, issued by the host in order (30_encoding.md R77). -/
abbrev Program := List Request

/-- The operation of the request in progress (10_state.md R23 `cur_op`). -/
inductive ReqOp where
  | encode
  | writeFrame
  | sendCommand
  deriving DecidableEq, Repr

/-- Which request carries a catalog command: "It is carried by ENCODE or SEND_COMMAND" (40_frame_encoder.md R94). -/
inductive Carrier where
  | encode
  | sendCommand
  deriving DecidableEq, Repr

/-- One constructor per row of spec/opcode_table.json. The first four are the request port's operations (F-REQ); the
last two are the rows of the catalog command byte and of the SPI function-select byte (log entries 7, 8 and 9). -/
inductive Instr where
  /-- ENCODE, op 00 (40_frame_encoder.md R90): PD, any length. -/
  | encode (pd : List Byte)
  /-- WRITE_FRAME, op 01 (41_bus_transaction.md R104): frame bytes, any length, unchecked. -/
  | writeFrame (frame : List Byte)
  /-- SEND_COMMAND, op 10 (41_bus_transaction.md R112): PD, command code first. -/
  | sendCommand (pd : List Byte)
  /-- Request op 11 (60_exceptions.md R126): its data is ignored. -/
  | reserved (data : List Byte)
  /-- GET_FIRMWARE_VERSION, command code 0x02 (40_frame_encoder.md R94): PD = [02], under its carrying request. -/
  | getFirmwareVersion (carrier : Carrier)
  /-- SPI_DATA_WRITE, marker 0x01 in front of a frame (41_bus_transaction.md R103). -/
  | spiDataWrite (frame : List Byte)
  deriving DecidableEq, Repr

/-- Pseudo-requests (30_encoding.md R78); each expands to one request. -/
inductive PseudoRequest where
  /-- `CMD op, [e0 ... ek-1]` -/
  | cmd (code : Byte) (extra : List Byte)
  /-- `ENCODE_CMD op, [e0 ... ek-1]` -/
  | encodeCmd (code : Byte) (extra : List Byte)
  /-- `GET_FIRMWARE_VERSION` -/
  | getFirmwareVersion
  deriving DecidableEq, Repr

/-- The three encodings an instruction of the table is written in (30_encoding.md R59 to R73): the request as the port
reads it, the request as the command-level contract reads it, and the burst. -/
inductive Format where
  /-- F-REQ: the op byte, then the data. -/
  | request
  /-- F-REQ read at the command level (30_encoding.md R78): the op byte, the command code, its arguments. -/
  | command
  /-- F-BURST: the SPI function-select byte, then the frame. -/
  | burst
  deriving DecidableEq, Repr

/-- Outcome of a request (10_state.md R24, 60_exceptions.md R122). -/
inductive Status where
  | ok
  | lengthOverflow
  | transportError
  deriving DecidableEq, Repr

/-- The first transport call that failed (10_state.md R24). -/
inductive Stage where
  | none
  | select
  | write
  | deselect
  deriving DecidableEq, Repr

/-- F-RESP, the response record (10_state.md R24), over the failure type (R41). -/
structure Response (E : Type) where
  status        : Status
  stage         : Stage
  releaseFailed : Bool
  err           : Option E
  errRelease    : Option E
  frame         : Option (List Byte)
  length        : Option Nat
  deriving DecidableEq, Repr

/-- The transport's answer to a call: `ok` or `err(e)` (10_state.md R27, `Result TErr` of R19),
over the failure type. -/
inductive Answer (E : Type) where
  | ok
  | err (e : E)
  deriving DecidableEq, Repr, Inhabited

/-- The three transport calls (10_state.md R27). -/
inductive Call where
  | select
  | write (bytes : List Byte)
  | deselect
  deriving DecidableEq, Repr

/-- An event at the transport interface (10_state.md R29). -/
inductive Event (E : Type) where
  | issue (c : Call)
  | answer (r : Answer E)
  deriving DecidableEq, Repr

/-- The moves of the three agents (00_scope.md R17). Which one is tried next is left open by the spec, which admits
every order (41_bus_transaction.md R102, 70_reset_and_hazards.md R150); see log entry 3. -/
inductive Move where
  /-- The block accepts the request in the latch (41_bus_transaction.md R102). -/
  | accept
  /-- The block acts on the answer in the latch (41_bus_transaction.md R105 to R109). -/
  | act
  /-- The transport answers the outstanding call (10_state.md R27). -/
  | answer
  /-- The host writes a request into the latch (10_state.md R28). -/
  | post
  deriving DecidableEq, Repr, Inhabited

/-- A move with what its agent chose: the transport's answer, the host's request. -/
inductive Action (E : Type) where
  | accept
  | act
  | answer (a : Answer E)
  | post (r : Request)
  deriving DecidableEq, Repr

end Sys2Proof
end

