-- ==== Sys2Proof/Config.lean ====
section
/-! DEFINITION. Configuration (fixed for a run) and the free values: opaque constants without a body, so that no proof
can see what they are and every claim holds whatever they are. The failure type's constant, `Config.isFailureValue`,
stands beside `TErr` in Word.lean. -/

namespace Sys2Proof

/-- `RELEASE_ON_SELECT_FAIL` (00_scope.md R9, 41_bus_transaction.md R107): the source settles neither value, so the
constant has no body (log entry 5, safe). -/
opaque Config.releaseOnSelectFail : Bool

/-- Which move is tried at each draw: the order of the agents' moves, which the spec leaves open
(41_bus_transaction.md R102 "The model admits either order"). Free value (log entry 3, safe). -/
opaque Config.schedule : Nat → Move

/-- The transport's answer at each draw: "any `ok` or any `err(e)` with `e : TErr`, under no law" (10_state.md R27).
Free value (log entry 4, safe). -/
opaque Config.transportAnswer : Nat → Answer TErr

/-- The request the host writes at each draw: "may choose any op and any data" (70_reset_and_hazards.md R147).
Free value (log entry 4, safe). -/
opaque Config.hostRequest : Nat → Request

/-- The raw draw behind the number of bytes that reached the chip, for the failed write whose answer is the last of so
many trace events (60_exceptions.md R131); the block never observes it. Free value (log entry 12, safe). -/
opaque Config.bytesReached : Nat → Nat

end Sys2Proof
end

