-- ==== Sys2Proof/Machine/State.lean ====
section
/-! DEFINITION. The block's state (10_state.md R19 to R41), its reset value (R38), and the reasons a meaning can stop. -/

namespace Sys2Proof.Machine

/-- The write sequencer's position (10_state.md R22), the block's analogue of a program counter. -/
inductive Phase where
  | idle
  | selWait
  | wrWait
  | deselWait
  deriving DecidableEq, Repr

/-- The block's own record of the chip-select line (10_state.md R30). -/
inductive BusState where
  | released
  | acquired
  | indeterminate
  deriving DecidableEq, Repr

/-- The sticky model fault (10_state.md R25). -/
inductive FaultCode where
  | none
  | reservedOp
  | reentrant
  deriving DecidableEq, Repr

/-- The state record of 10_state.md R19, and two fields of the MODEL'S OWN at the end: `turn` and `draws` (log entry 3),
which say what the spec leaves open to the three agents. The parameter `E` is the failure type (R41 `St (TErr)`, 00_scope.md
R9); `State` without an argument is the state at the configuration's `TErr`. -/
structure State (E : Type := TErr) where
  /-- R22, 2 bits. -/
  phase    : Phase
  /-- R28, the request latch: the host writes it, the block reads and clears it. -/
  req      : Option Request
  /-- R23, the operation in progress. -/
  curOp    : Option ReqOp
  /-- R23, its operand, copied at acceptance. -/
  curPd    : List Byte
  /-- R23, the encoded frame of a SEND_COMMAND. -/
  curFrame : Option (List Byte)
  /-- R26, the burst. -/
  wbuf     : List Byte
  /-- R26, the answer latch: the transport writes it, the block reads and clears it. -/
  ans      : Option (Answer E)
  /-- R26, the payload of a failed select. -/
  selFail  : Option E
  /-- R26, the payload of a failed write. -/
  wrFail   : Option E
  /-- R30. -/
  bus      : BusState
  /-- R24, the response of the last completed request. -/
  resp     : Option (Response E)
  /-- R25, sticky. -/
  fault    : FaultCode
  /-- R29, the transport calls and answers in order, oldest first. -/
  trace    : List (Event E)
  /-- The model's own: the move tried at the next step. -/
  turn     : Move
  /-- The model's own: how many draws of free values have been used. -/
  draws    : Nat
  deriving DecidableEq, Repr

/-- The reasons a meaning stops. -/
inductive Fault where
  /-- Raised by the meaning of every instruction when it is asked of a block whose sticky fault is already set:
  "with `st.fault ≠ NONE` no block step is enabled" (60_exceptions.md R126), so there is no next state to give. `step`
  never asks it (the request then stays in the latch for ever). Safe (log entry 10). -/
  | blockStopped (code : FaultCode)
  deriving DecidableEq, Repr

/-- The reasons an instruction has no meaning. -/
inductive Refusal where
  /-- For an arm of `exec` that has no meaning yet. No arm is in that case, so nothing raises it. Safe. -/
  | notModelled (mnemonic : String)
  deriving DecidableEq, Repr

/-- 10_state.md R38, field by field; `turn` and `draws` are the model's own (log entry 3, DESIGN CHOICE): the host's
post is the one move enabled in the reset state, and no free value has been used. -/
def State.reset : State where
  phase := .idle
  req := none
  curOp := none
  curPd := []
  curFrame := none
  wbuf := []
  ans := none
  selFail := none
  wrFail := none
  bus := .released
  resp := none
  fault := .none
  trace := []
  turn := .post
  draws := 0

end Sys2Proof.Machine
end

