-- ==== Sys2Proof/Machine/Flags.lean ====
section
/-! DEFINITION. The codes of the status fields and the packed status byte. The block has no condition-code flags
(10_state.md R31); its status indications are the response's fields and the sticky fault. -/

namespace Sys2Proof.Machine

/-- 10_state.md R22. -/
def phaseCode : Phase → BitVec 2
  | .idle => 0
  | .selWait => 1
  | .wrWait => 2
  | .deselWait => 3

/-- 10_state.md R30; code 3 is never produced (R40). -/
def busCode : BusState → BitVec 2
  | .released => 0
  | .acquired => 1
  | .indeterminate => 2

/-- 10_state.md R25; code 3 is never produced (R40). -/
def faultCode : FaultCode → BitVec 2
  | .none => 0
  | .reservedOp => 1
  | .reentrant => 2

/-- 10_state.md R32, bits [1:0]. -/
def statusCode : Status → BitVec 2
  | .ok => 0
  | .lengthOverflow => 1
  | .transportError => 2

/-- 10_state.md R32, bits [3:2]. -/
def stageCode : Stage → BitVec 2
  | .none => 0
  | .select => 1
  | .write => 2
  | .deselect => 3

/-- The packing of 10_state.md R32: reserved 000, release_failed, stage, status. -/
def packStatus (status : Status) (stage : Stage) (releaseFailed : Bool) : Byte :=
  (0 : BitVec 3) ++ BitVec.ofBool releaseFailed ++ stageCode stage ++ statusCode status

/-- The packed status byte of a response (10_state.md R32). -/
def statusByte {E : Type} (r : Response E) : Byte := packStatus r.status r.stage r.releaseFailed

/-- The status a 2-bit code names; 11 is reserved (10_state.md R32). -/
def statusOfCode (c : BitVec 2) : Option Status :=
  match c.toNat with
  | 0 => some .ok
  | 1 => some .lengthOverflow
  | 2 => some .transportError
  | _ => none

/-- The stage a 2-bit code names (10_state.md R32). -/
def stageOfCode (c : BitVec 2) : Stage :=
  match c.toNat with
  | 0 => .none
  | 1 => .select
  | 2 => .write
  | _ => .deselect

/-- Reading the packed status byte back: status, stage and release_failed; none where a reserved bit or code stands
(93_implementation_defined.md I10). -/
def readStatusByte (b : Byte) : Option (Status × Stage × Bool) :=
  if b.extractLsb' 5 3 = 0 then
    (statusOfCode (b.extractLsb' 0 2)).map
      (fun st => (st, stageOfCode (b.extractLsb' 2 2), b.getLsbD 4))
  else none

end Sys2Proof.Machine
end

