-- ==== Sys2Proof/Decode.lean ====
section
/-! DEFINITION. The decoder of the three encodings, total on any bytes and rejecting by name, and the encoder written
from the same tables (30_encoding.md R59 to R78). -/

namespace Sys2Proof

/-- SPI_DATA_WRITE = 0x01 (00_scope.md R10, 30_encoding.md R60): burst offset 0. -/
def spiDataWriteMarker : Byte := 0x01

/-- GET_FIRMWARE_VERSION = 0x02 (00_scope.md R10, 30_encoding.md R60 and R73): PD[0] of that command. -/
def getFirmwareVersionCode : Byte := 0x02

/-- Why bytes are no instruction of the table. -/
inductive DecodeError where
  /-- No byte stands where the op, the command code or the marker is read. -/
  | truncated
  /-- The op of a command-level request is neither ENCODE nor SEND_COMMAND (40_frame_encoder.md R94). -/
  | notACarrier (op : BitVec 2)
  /-- The command code is not in the catalog, whose one entry is 0x02 (30_encoding.md R73). The port still encodes
  it (R74): only the command-level reading has no name for it. -/
  | notInCatalog (code : Byte)
  /-- GET_FIRMWARE_VERSION "is sent with no argument bytes" (30_encoding.md R73). -/
  | unexpectedArguments (extra : List Byte)
  /-- Another SPI function-select byte: "the block emits no other" (30_encoding.md R68). -/
  | otherFunctionSelect (marker : Byte)
  deriving DecidableEq, Repr

/-- The op codes of F-REQ (30_encoding.md R70). -/
def ReqOp.code : ReqOp → BitVec 2
  | .encode => 0
  | .writeFrame => 1
  | .sendCommand => 2

/-- The op of the request that carries a catalog command. -/
def Carrier.code : Carrier → BitVec 2
  | .encode => ReqOp.encode.code
  | .sendCommand => ReqOp.sendCommand.code

/-- `op[1:0]` of the byte that carries it. Bits [7:2] are not looked at (log entry 6). -/
def opOfByte (b : Byte) : BitVec 2 := b.setWidth 2

/-- The byte that carries an op; bits [7:2] are 0 (log entry 6). -/
def byteOfOp (op : BitVec 2) : Byte := op.setWidth 8

/-- The port's decoder (30_encoding.md R71): "every 2-bit value selects exactly one row. `data` is not decoded". -/
def decodeRequest (r : Request) : Instr :=
  match r.op.toNat with
  | 0 => .encode r.data
  | 1 => .writeFrame r.data
  | 2 => .sendCommand r.data
  | _ => .reserved r.data

/-- The carrier an op names, if it names one (40_frame_encoder.md R94: "request op 00 or 10"). -/
def carrierOfOp (op : BitVec 2) : Option Carrier :=
  match op.toNat with
  | 0 => some .encode
  | 2 => some .sendCommand
  | _ => none

/-- A request read at the command level (30_encoding.md R73 and R78): `PD[0]` names the catalog command. -/
def decodeCommand (op : BitVec 2) (pd : List Byte) : Except DecodeError Instr :=
  match carrierOfOp op, pd with
  | none, _ => .error (.notACarrier op)
  | some _, [] => .error .truncated
  | some c, code :: extra =>
    if code = getFirmwareVersionCode then
      if extra = [] then .ok (.getFirmwareVersion c) else .error (.unexpectedArguments extra)
    else .error (.notInCatalog code)

/-- The decoder of the three encodings, on any bytes. -/
def decode : Format → List Byte → Except DecodeError Instr
  | _, [] => .error .truncated
  | .request, b :: data => .ok (decodeRequest ⟨opOfByte b, data⟩)
  | .command, b :: pd => decodeCommand (opOfByte b) pd
  | .burst, m :: frame =>
    if m = spiDataWriteMarker then .ok (.spiDataWrite frame) else .error (.otherFunctionSelect m)

/-- The encoder: the format an instruction is written in and its bytes there (30_encoding.md R65, R70, R73). -/
def encode : Instr → Format × List Byte
  | .encode pd => (.request, byteOfOp 0 :: pd)
  | .writeFrame frame => (.request, byteOfOp 1 :: frame)
  | .sendCommand pd => (.request, byteOfOp 2 :: pd)
  | .reserved data => (.request, byteOfOp 3 :: data)
  | .getFirmwareVersion c => (.command, [byteOfOp c.code, getFirmwareVersionCode])
  | .spiDataWrite frame => (.burst, spiDataWriteMarker :: frame)

/-- The canonical form of bytes in a format: the same bytes with the unused bits [7:2] of the op byte zero
(log entry 6); a burst has no unused bit. -/
def canonicalBytes : Format → List Byte → List Byte
  | _, [] => []
  | .request, b :: data => byteOfOp (opOfByte b) :: data
  | .command, b :: pd => byteOfOp (opOfByte b) :: pd
  | .burst, m :: frame => m :: frame

/-- The request the host writes for an instruction: its op and data, the expansion of the catalog command under its
carrier (30_encoding.md R78, 40_frame_encoder.md R94); the burst marker is no request. -/
def Instr.toRequest : Instr → Option Request
  | .encode pd => some ⟨0, pd⟩
  | .writeFrame frame => some ⟨1, frame⟩
  | .sendCommand pd => some ⟨2, pd⟩
  | .reserved data => some ⟨3, data⟩
  | .getFirmwareVersion c => some ⟨c.code, [getFirmwareVersionCode]⟩
  | .spiDataWrite _ => none

/-- The expansions of 30_encoding.md R78. -/
def PseudoRequest.expand : PseudoRequest → Request
  | .cmd code extra => ⟨2, code :: extra⟩
  | .encodeCmd code extra => ⟨0, code :: extra⟩
  | .getFirmwareVersion => ⟨2, [getFirmwareVersionCode]⟩

/-- One hex digit of 30_encoding.md R77; upper case, as the rule's examples elsewhere in the spec (log entry 13). -/
def hexDigit (n : Nat) : Char :=
  if n < 10 then Char.ofNat (48 + n) else Char.ofNat (55 + n)

/-- A byte as "two hex digits without `0x`" (30_encoding.md R77). -/
def renderByte (b : Byte) : List Char := [hexDigit (b.toNat / 16), hexDigit (b.toNat % 16)]

/-- A list of bytes separated by spaces (30_encoding.md R77); `[]` is the empty list. -/
def renderBytes : List Byte → List Char
  | [] => []
  | [b] => renderByte b
  | b :: b' :: bs => renderByte b ++ ' ' :: renderBytes (b' :: bs)

/-- The text of a request (30_encoding.md R77): its operation's name, then its data in brackets. The reserved op has no
spelling there. -/
def renderRequest (r : Request) : Option (List Char) :=
  let name : Option (List Char) :=
    match r.op.toNat with
    | 0 => some ['E', 'N', 'C', 'O', 'D', 'E']
    | 1 => some ['W', 'R', 'I', 'T', 'E', '_', 'F', 'R', 'A', 'M', 'E']
    | 2 => some ['S', 'E', 'N', 'D', '_', 'C', 'O', 'M', 'M', 'A', 'N', 'D']
    | _ => none
  name.map (fun op => op ++ ' ' :: '[' :: renderBytes r.data ++ [']'])

/-- `k` bytes of a number, the least significant first. -/
def bytesOfNat : Nat → Nat → List Byte
  | 0, _ => []
  | k + 1, w => BitVec.ofNat 8 (w % 256) :: bytesOfNat k (w / 256)

/-- The bytes of a table word: bit 0 is the least significant bit of the first byte. At least one byte, since every
instruction has its op byte; a word shorter than the instruction stands for an operand list of the bytes given
(log entry 7). -/
def bytesOfTableWord (nbits w : Nat) : List Byte := bytesOfNat (max 1 ((nbits + 7) / 8)) w

/-- The request whose bytes a table word lays out. -/
def requestOfTableWord (nbits w : Nat) : Request :=
  match bytesOfTableWord nbits w with
  | [] => ⟨0, []⟩
  | b :: data => ⟨opOfByte b, data⟩

/-- What the port's decoder reads from the bits of a table word. The rows of the opcode table are numbered in three
spaces (F-REQ op, command code byte, function-select byte); the port, where the machine fetches, is F-REQ
(log entry 7). -/
def decodeTableWord (nbits w : Nat) : Option Instr :=
  match decode .request (bytesOfTableWord nbits w) with
  | .ok i => some i
  | .error _ => none

end Sys2Proof
end

