-- ==== Sys2Proof/Machine/Operands.lean ====
section
/-! DEFINITION. The operand forms: the packet data list PD and its frame (40_frame_encoder.md R81 to R99), the burst
(30_encoding.md R65), the frame validity predicate (30_encoding.md R79). -/

namespace Sys2Proof.Machine

/-- 00_scope.md R10. -/
def preamble : Byte := 0x00

/-- 00_scope.md R10. -/
def startCode1 : Byte := 0x00

/-- 00_scope.md R10. -/
def startCode2 : Byte := 0xFF

/-- 00_scope.md R10: the host-to-chip frame identifier. -/
def tfi : Byte := 0xD4

/-- 00_scope.md R10. -/
def postamble : Byte := 0x00

/-- The largest PD that encodes (40_frame_encoder.md R82): "So n = 254 encodes and n = 255 fails." -/
def maxPd : Nat := 254

/-- `lo8(v) = v mod 256` with the mathematical modulus, for every integer (00_scope.md R12). -/
def lo8 (v : Int) : Byte := BitVec.ofNat 8 (v % 256).toNat

/-- The integer sum of a byte list (00_scope.md R13 `Σ s`). -/
def byteSum : List Byte → Nat
  | [] => 0
  | b :: bs => b.toNat + byteSum bs

/-- LEN as a number: n + 1 (40_frame_encoder.md R84). -/
def frameLen (pd : List Byte) : Nat := pd.length + 1

/-- The LEN byte (40_frame_encoder.md R84). -/
def lenByte (pd : List Byte) : Byte := BitVec.ofNat 8 (frameLen pd)

/-- `LCS = lo8(-LEN)` (40_frame_encoder.md R85). -/
def lcsByte (pd : List Byte) : Byte := lo8 (-(frameLen pd : Int))

/-- The DCS accumulator (40_frame_encoder.md R87): `for b in PD: acc <- acc - b`, on unbounded integers. -/
def dcsLoop : Int → List Byte → Int
  | acc, [] => acc
  | acc, b :: bs => dcsLoop (acc - b.toNat) bs

/-- `DCS <- lo8(acc)`, the accumulator starting at `-0xD4` (40_frame_encoder.md R87). -/
def dcsByte (pd : List Byte) : Byte := lo8 (dcsLoop (-(tfi.toNat : Int)) pd)

/-- The 8-bit accumulator of 40_frame_encoder.md R88, subtracting modulo 256. -/
def dcsLoop8 : Byte → List Byte → Byte
  | acc, [] => acc
  | acc, b :: bs => dcsLoop8 (acc - b) bs

/-- The result of the encoder (40_frame_encoder.md R81): a frame, or LengthOverflow(n). -/
inductive EncResult where
  | frame (bytes : List Byte)
  | lengthOverflow (n : Nat)
  deriving DecidableEq, Repr

/-- The frame layout (40_frame_encoder.md R83): header, PD verbatim, trailer. -/
def frameOf (pd : List Byte) : List Byte :=
  [preamble, startCode1, startCode2, lenByte pd, lcsByte pd, tfi] ++ pd ++ [dcsByte pd, postamble]

/-- The frame encoder (40_frame_encoder.md R81 and R82): a total function of its operand alone. -/
def enc (pd : List Byte) : EncResult :=
  if pd.length > maxPd then .lengthOverflow pd.length else .frame (frameOf pd)

/-- The burst (30_encoding.md R65, 41_bus_transaction.md R103): the marker, then the frame. -/
def burstOf (frame : List Byte) : List Byte := spiDataWriteMarker :: frame

/-- Byte `i` of a list, 0 past its end; used only where the position is known to exist. -/
def byteAt (f : List Byte) (i : Nat) : Byte := f.getD i 0

/-- Frame validity as the chip checks it (30_encoding.md R79): "This predicate is for laws and tests; the block never
evaluates it." -/
def frameValid (f : List Byte) : Bool :=
  let len := (byteAt f 3).toNat
  decide (f.length ≥ 8) &&
  decide (f.take 3 = [preamble, startCode1, startCode2]) &&
  decide (f.length = len + 7) && decide (len ≥ 1) &&
  decide (((byteAt f 3).toNat + (byteAt f 4).toNat) % 256 = 0) &&
  decide (byteAt f 5 = tfi) &&
  decide ((byteSum ((f.drop 5).take len) + (byteAt f (5 + len)).toNat) % 256 = 0) &&
  decide (byteAt f (6 + len) = postamble)

end Sys2Proof.Machine
end

