-- ==== Sys2Proof/Machine/Ops.lean ====
section
/-! DEFINITION. The named operations over the block's state: driving a response, the sticky fault, issuing a transport
call, accepting a request, beginning a burst, and the moves of the host and the transport. -/

namespace Sys2Proof.Machine

variable {E : Type}

/-- `respond(r)` (00_scope.md R14): "ends the request and drives the response r". Driving the response clears the
current-request fields (10_state.md R23) and the transaction fields (R26), and the block is in IDLE
(60_exceptions.md R132). Log entry 11. -/
def State.respond (r : Response E) (s : State E) : State E :=
  { s with
    resp := some r, phase := .idle
    curOp := none, curPd := [], curFrame := none
    wbuf := [], selFail := none, wrFail := none }

/-- `fault F` (60_exceptions.md R126): sets the sticky model fault. Everything the request did before it remains
(R127). -/
def State.raise (f : FaultCode) (s : State E) : State E := { s with fault := f }

/-- The wait phase of a call (41_bus_transaction.md R101). -/
def waitPhase : Call → Phase
  | .select => .selWait
  | .write _ => .wrWait
  | .deselect => .deselWait

/-- `issue c` (41_bus_transaction.md R101): append `Issue(c)` to the trace and enter the wait phase of c. -/
def State.issue (c : Call) (s : State E) : State E :=
  { s with trace := s.trace ++ [.issue c], phase := waitPhase c }

/-- Copying an accepted request's operand (10_state.md R23, 20_memory.md R57): the operation, its data, and no encoded
frame yet. -/
def State.capture (op : ReqOp) (data : List Byte) (s : State E) : State E :=
  { s with curOp := some op, curPd := data, curFrame := none }

/-- `BEGIN(frame)` (41_bus_transaction.md R103): the marker in front of the frame, then the select call. -/
def State.beginBurst (frame : List Byte) (s : State E) : State E :=
  { s with wbuf := burstOf frame }.issue .select

/-- A block step on something that starts a request (41_bus_transaction.md R102 and 60_exceptions.md R126): no step
with a fault already set; REENTRANT outside IDLE, before anything else is looked at (60_exceptions.md R129);
otherwise the body. -/
def startStep (body : State E → State E) (s : State E) : Host.Outcome (State E) Fault Refusal :=
  if s.fault = .none then
    .next (if s.phase = .idle then body s else s.raise .reentrant)
  else .fault (.blockStopped s.fault)

/-- ACCEPT (41_bus_transaction.md R102): the latch is read and cleared, then the request starts. -/
def acceptStep (body : State E → State E) (s : State E) : Host.Outcome (State E) Fault Refusal :=
  startStep body { s with req := none }

/-- The response of an encoding that succeeded (40_frame_encoder.md R91). -/
def encodedResponse (frame : List Byte) : Response E where
  status := .ok
  stage := .none
  releaseFailed := false
  err := none
  errRelease := none
  frame := some frame
  length := none

/-- The response of LengthOverflow(n) (40_frame_encoder.md R90 and R91, 60_exceptions.md R123): "No partial frame is
returned, truncated or padded". -/
def overflowResponse (n : Nat) : Response E where
  status := .lengthOverflow
  stage := .none
  releaseFailed := false
  err := none
  errRelease := none
  frame := none
  length := some n

/-- ENCODE(PD) (40_frame_encoder.md R90), after acceptance: one step, a response and nothing else. -/
def encodeBody (pd : List Byte) (s : State E) : State E :=
  match enc pd with
  | .frame f => (s.capture .encode pd).respond (encodedResponse f)
  | .lengthOverflow n => (s.capture .encode pd).respond (overflowResponse n)

/-- WRITE_FRAME (41_bus_transaction.md R102 and R104), after acceptance: any frame, unchecked. -/
def writeFrameBody (frame : List Byte) (s : State E) : State E :=
  (s.capture .writeFrame frame).beginBurst frame

/-- SEND(PD) (41_bus_transaction.md R112), after acceptance: the length check comes before any bus activity (R113). -/
def sendBody (pd : List Byte) (s : State E) : State E :=
  match enc pd with
  | .frame f => { s.capture .sendCommand pd with curFrame := some f }.beginBurst f
  | .lengthOverflow n => (s.capture .sendCommand pd).respond (overflowResponse n)

/-! ### The moves of the host and the transport, and the model's own bookkeeping -/

/-- The host's move (10_state.md R28): it writes the latch when the latch is empty; "a write when `req ≠ none` has no
move" (70_reset_and_hazards.md R147, log entry 14). -/
def State.post (r : Request) (s : State E) : State E :=
  match s.req with
  | none => { s with req := some r }
  | some _ => s

/-- Whether a call is outstanding: a wait phase whose answer has not come (10_state.md R39). -/
def State.outstanding (s : State E) : Bool := decide (s.phase ≠ .idle) && s.ans.isNone

/-- The transport's move (10_state.md R27): it answers the outstanding call, at most once; "an answer with no
outstanding call has no move" (70_reset_and_hazards.md R148). It may do so after a fault too (60_exceptions.md R127). -/
def State.answer (a : Answer E) (s : State E) : State E :=
  if s.outstanding then { s with ans := some a, trace := s.trace ++ [.answer a] } else s

/-- The model's own bookkeeping after every move (log entry 3): one draw used, and the schedule's next move. -/
def State.tick (s : State E) : State E :=
  { s with draws := s.draws + 1, turn := Config.schedule s.draws }

/-- The request a block step would accept (41_bus_transaction.md R102): "enabled when `st.fault = NONE` and
`st.req = some (op, data)`". -/
def State.fetch (s : State E) : Option Instr :=
  if s.fault = .none then s.req.map decodeRequest else none

/-- `tick` after a meaning; a meaning that stops is not followed by anything. -/
def tickAfter : Host.Outcome (State E) Fault Refusal → Host.Outcome (State E) Fault Refusal
  | .next s => .next s.tick
  | .fault r => .fault r
  | .refused r => .refused r

/-- How many bytes of a failed write reached the chip: "a draw from 0 to `|wbuf|`, which the block never observes"
(60_exceptions.md R131), while the write's failed answer stands in the latch; in every other state there is no such
number. The draw is named by the length of the trace, so that each failed write has one. No step reads it
(10_state.md R35, log entry 12). -/
def State.bytesReached (s : State E) : Option Nat :=
  match s.phase, s.ans with
  | .wrWait, some (.err _) => some (Config.bytesReached s.trace.length % (s.wbuf.length + 1))
  | _, _ => none

end Sys2Proof.Machine
end

