-- ==== Sys2Proof/Machine/BusTransaction.lean ====
section
/-! DEFINITION. The write controller's family: WRITE_FRAME, SEND_COMMAND and SPI_DATA_WRITE. What follows the select
call is the sequencer's (Sys2Proof.Machine.Sequencer). -/

namespace Sys2Proof.Machine

variable {E : Type}

/-- WRITE_FRAME, op 01 (41_bus_transaction.md R104). -/
def execWriteFrame (frame : List Byte) (s : State E) : Host.Outcome (State E) Fault Refusal :=
  acceptStep (writeFrameBody frame) s

/-- SEND_COMMAND, op 10 (41_bus_transaction.md R112 and R113). -/
def execSendCommand (pd : List Byte) (s : State E) : Host.Outcome (State E) Fault Refusal :=
  acceptStep (sendBody pd) s

/-- SPI_DATA_WRITE (41_bus_transaction.md R103): BEGIN(frame), the marker in front of the frame and the select call. It
is no request: it neither reads nor clears the latch, and within a run it is the last part of WRITE_FRAME and
SEND_COMMAND (log entry 8, which also says why a busy block faults REENTRANT here). -/
def execSpiDataWrite (frame : List Byte) (s : State E) : Host.Outcome (State E) Fault Refusal :=
  startStep (State.beginBurst frame) s

end Sys2Proof.Machine
end

