-- ==== Sys2Proof/Machine/FrameEncoder.lean ====
section
/-! DEFINITION. The frame encoder's family: ENCODE and GET_FIRMWARE_VERSION. -/

namespace Sys2Proof.Machine

variable {E : Type}

/-- ENCODE, op 00 (40_frame_encoder.md R90 to R92). -/
def execEncode (pd : List Byte) (s : State E) : Host.Outcome (State E) Fault Refusal :=
  acceptStep (encodeBody pd) s

/-- GET_FIRMWARE_VERSION (40_frame_encoder.md R94): PD = [02] under the request that carries it; the pseudo-request of
30_encoding.md R78 is the one carried by SEND_COMMAND (log entry 9). -/
def execGetFirmwareVersion (carrier : Carrier) (s : State E) : Host.Outcome (State E) Fault Refusal :=
  match carrier with
  | .encode => acceptStep (encodeBody [getFirmwareVersionCode]) s
  | .sendCommand => acceptStep (sendBody [getFirmwareVersionCode]) s

end Sys2Proof.Machine
end

