-- ==== Sys2Proof/Machine/ReservedOp.lean ====
section
/-! DEFINITION. The reserved request op 11. -/

namespace Sys2Proof.Machine

variable {E : Type}

/-- Op 11 (41_bus_transaction.md R102, 60_exceptions.md R126): the latch is cleared, the sticky fault RESERVED_OP is
set, no response is driven; the data is ignored. -/
def execReserved (_data : List Byte) (s : State E) : Host.Outcome (State E) Fault Refusal :=
  acceptStep (State.raise .reservedOp) s

end Sys2Proof.Machine
end

