-- ==== Sys2Proof/Machine/Dispatch.lean ====
section
/-! DEFINITION. exec: one arm per constructor of Instr, each one call of its meaning. -/

namespace Sys2Proof.Machine

def exec (i : Instr) (s : State) : Host.Outcome State Fault Refusal :=
  match i with
  | .encode pd => Sys2Proof.Machine.execEncode pd s
  | .writeFrame frame => Sys2Proof.Machine.execWriteFrame frame s
  | .sendCommand pd => Sys2Proof.Machine.execSendCommand pd s
  | .reserved data => Sys2Proof.Machine.execReserved data s
  | .getFirmwareVersion carrier => Sys2Proof.Machine.execGetFirmwareVersion carrier s
  | .spiDataWrite frame => Sys2Proof.Machine.execSpiDataWrite frame s

end Sys2Proof.Machine
end

