-- ==== Sys2Proof/Machine/Sequencer.lean ====
section
/-! DEFINITION. The write sequencer: the block's steps on an answer of the transport (41_bus_transaction.md R105 to
R110). -/

namespace Sys2Proof.Machine

variable {E : Type}

/-- The payload of a failed answer. -/
def answerPayload : Answer E → Option E
  | .ok => none
  | .err e => some e

/-- The first failed call in issue order and its payload (41_bus_transaction.md R110); stage NONE if none failed. -/
def firstFailure (selFail wrFail deselFail : Option E) : Stage × Option E :=
  match selFail, wrFail, deselFail with
  | some e, _, _ => (.select, some e)
  | none, some e, _ => (.write, some e)
  | none, none, some e => (.deselect, some e)
  | none, none, none => (.none, none)

/-- The response FINISH(d) builds (41_bus_transaction.md R110): the first failure is reported, and a failed deselect
after an earlier failure sets `release_failed` and `err_release` (60_exceptions.md R130). `d` is the deselect's answer,
or none if no deselect was issued. -/
def finishResponse (d : Option (Answer E)) (s : State E) : Response E :=
  let deselFail := d.bind answerPayload
  let rf := (s.selFail.isSome || s.wrFail.isSome) && deselFail.isSome
  let failure := firstFailure s.selFail s.wrFail deselFail
  { status := if failure.1 = .none then .ok else .transportError
    stage := failure.1
    releaseFailed := rf
    err := failure.2
    errRelease := if rf then deselFail else none
    frame := s.curFrame
    length := none }

/-- FINISH(d) (41_bus_transaction.md R110): drive the response, clear the transaction's fields, return to IDLE. -/
def State.finish (d : Option (Answer E)) (s : State E) : State E := s.respond (finishResponse d s)

/-- SEL_WAIT (41_bus_transaction.md R105 to R107): after `ok` the burst is written in one call; after `err` the write is
never issued, and RELEASE_ON_SELECT_FAIL decides whether a deselect is. -/
def selAnswered (release : Bool) (a : Answer E) (s : State E) : State E :=
  match a with
  | .ok => { s with ans := none, bus := .acquired }.issue (.write s.wbuf)
  | .err e =>
    let s' := { s with ans := none, bus := .indeterminate, selFail := some e }
    if release then s'.issue .deselect else s'.finish none

/-- WR_WAIT (41_bus_transaction.md R108): "Whatever the write's answer, the block releases the bus". -/
def writeAnswered (a : Answer E) (s : State E) : State E :=
  match a with
  | .ok => { s with ans := none }.issue .deselect
  | .err e => { s with ans := none, wrFail := some e }.issue .deselect

/-- DESEL_WAIT (41_bus_transaction.md R109): the line's record, then FINISH. -/
def deselAnswered (a : Answer E) (s : State E) : State E :=
  match a with
  | .ok => { s with ans := none, bus := .released }.finish (some .ok)
  | .err e => { s with ans := none, bus := .indeterminate }.finish (some (.err e))

/-- The block's step on the answer latch (41_bus_transaction.md R101), for either value of RELEASE_ON_SELECT_FAIL. With
a fault set, in IDLE, or with no answer there is no such step and nothing changes. -/
def State.act (release : Bool) (s : State E) : State E :=
  match s.fault, s.phase, s.ans with
  | .none, .selWait, some a => selAnswered release a s
  | .none, .wrWait, some a => writeAnswered a s
  | .none, .deselWait, some a => deselAnswered a s
  | _, _, _ => s

end Sys2Proof.Machine
end

