-- ==== Sys2Proof/Machine/Agents.lean ====
section
/-! DEFINITION. One move of one agent, and the move the free values choose. -/

namespace Sys2Proof.Machine

/-- One move, for either value of RELEASE_ON_SELECT_FAIL. A move that is not enabled changes nothing (log entry 3):
the block accepts only as 41_bus_transaction.md R102 says, acts only on an answer, the transport answers only an
outstanding call, the host writes only an empty latch. -/
def perform (release : Bool) (a : Action TErr) (s : State) : Host.Outcome State Fault Refusal :=
  match a with
  | .accept =>
    match s.fetch with
    | some i => exec i s
    | none => .next s
  | .act => .next (s.act release)
  | .answer r => .next (s.answer r)
  | .post r => .next (s.post r)

/-- Moves one after another, stopping at the first that has no next state. -/
def performAll (release : Bool) : List (Action TErr) → State → Host.Outcome State Fault Refusal
  | [], s => .next s
  | a :: as, s =>
    match perform release a s with
    | .next s' => performAll release as s'
    | .fault r => .fault r
    | .refused r => .refused r

/-- The move whose turn it is, with what the free values choose for it (log entries 3 and 4). -/
def State.action (s : State) : Action TErr :=
  match s.turn with
  | .accept => .accept
  | .act => .act
  | .answer => .answer (Config.transportAnswer s.draws)
  | .post => .post (Config.hostRequest s.draws)

end Sys2Proof.Machine
end

