-- ==== Sys2Proof/Machine/Step.lean ====
section
/-! DEFINITION. One step of the machine: the move whose turn it is, and then the model's own bookkeeping. -/

namespace Sys2Proof.Machine

/-- One step: the move the free values choose, under the configuration, then `tick` (log entry 3). -/
def step (s : State) : Host.Outcome State Fault Refusal :=
  tickAfter (perform Config.releaseOnSelectFail s.action s)

/-- `s` with the request of a table word in the latch and the block's turn to accept it: the host's write of `req`
(10_state.md R28, log entry 15). -/
def State.withFetchWord (s : State) (nbits w : Nat) : State :=
  { s with req := some (requestOfTableWord nbits w), turn := .accept }

end Sys2Proof.Machine
end

