-- ==== Sys2Proof/Safety.lean ====
section
/-! DEFINITION. What claims are stated in: the observation, the invariants of 10_state.md R37, the launch premises of
70_reset_and_hazards.md R146, sessions at the transport interface, and the end of a run. -/

namespace Sys2Proof.Safety

open Sys2Proof.Machine

variable {E E' : Type}

/-! ### The observation -/

/-- What a claim about the block may observe (00_scope.md R18): the trace of transport calls, the response, the fault. -/
structure Observation (E : Type) where
  trace : List (Event E)
  resp  : Option (Response E)
  fault : FaultCode
  deriving DecidableEq, Repr

/-- The observation of a state (00_scope.md R18). -/
def observe (s : State E) : Observation E := ⟨s.trace, s.resp, s.fault⟩

/-! ### The invariants of 10_state.md R37 -/

/-- R37 item 1: in IDLE the current-request and transaction fields are cleared. -/
def IdleClean (s : State E) : Prop :=
  s.phase = .idle →
    s.curOp = none ∧ s.curPd = [] ∧ s.curFrame = none ∧ s.wbuf = [] ∧ s.ans = none ∧ s.selFail = none ∧ s.wrFail = none

/-- R37 item 2: outside IDLE a WRITE_FRAME or SEND_COMMAND is in progress and the burst "holds at least the marker". -/
def BusyLoaded (s : State E) : Prop :=
  s.phase ≠ .idle →
    (s.curOp = some .writeFrame ∨ s.curOp = some .sendCommand) ∧ s.wbuf.head? = some spiDataWriteMarker

/-- R37 item 3: an answer in the latch belongs to a wait phase and is the last trace event. -/
def AnswerLast (s : State E) : Prop :=
  ∀ a, s.ans = some a → s.phase ≠ .idle ∧ s.trace.getLast? = some (.answer a)

/-- The call the phase names (10_state.md R22). -/
def outstandingCall (s : State E) : Option Call :=
  match s.phase with
  | .idle => none
  | .selWait => some .select
  | .wrWait => some (.write s.wbuf)
  | .deselWait => some .deselect

/-- R37 item 4: in a wait phase without an answer the last trace event is the issue of the call the phase names. -/
def IssueLast (s : State E) : Prop :=
  ∀ c, s.ans = none → outstandingCall s = some c → s.trace.getLast? = some (.issue c)

/-- R37 item 5. -/
def WriteAcquired (s : State E) : Prop := s.phase = .wrWait → s.bus = .acquired

/-- Whether an event is the issue of a call. -/
def isIssue : Event E → Bool
  | .issue _ => true
  | .answer _ => false

/-- How many calls a trace issues. -/
def issueCount (t : List (Event E)) : Nat := (t.filter isIssue).length

/-- How many answers a trace holds. -/
def answerCount (t : List (Event E)) : Nat := (t.filter (fun e => !isIssue e)).length

/-- R37 item 6, stated for every phase: one issue more than answers while a call is outstanding, else equally many. -/
def IssuesAnswered (s : State E) : Prop :=
  issueCount s.trace = answerCount s.trace + (if s.outstanding then 1 else 0)

/-- The six items of 10_state.md R37 together. -/
structure Inv (s : State E) : Prop where
  idleClean      : IdleClean s
  busyLoaded     : BusyLoaded s
  answerLast     : AnswerLast s
  issueLast      : IssueLast s
  writeAcquired  : WriteAcquired s
  issuesAnswered : IssuesAnswered s

/-! ### The transaction in progress -/

/-- What the transaction fields hold while a request is in progress (10_state.md R23 and R26): the burst of the
operand's frame, and the encoded frame of a SEND_COMMAND. -/
def BurstOfOperand (s : State E) : Prop :=
  s.phase ≠ .idle →
    (s.curOp = some .writeFrame ∧ s.curFrame = none ∧ s.wbuf = burstOf s.curPd) ∨
    (∃ f, s.curOp = some .sendCommand ∧ enc s.curPd = .frame f ∧ s.curFrame = some f ∧ s.wbuf = burstOf f)

/-- Recorded failures (60_exceptions.md R130): only while the deselect is outstanding, and never of both calls. -/
def OneFailure (s : State E) : Prop :=
  (s.phase ≠ .deselWait → s.selFail = none ∧ s.wrFail = none) ∧ (s.selFail = none ∨ s.wrFail = none)

/-! ### Sessions at the transport interface -/

/-- A complete session (41_bus_transaction.md R115 and R119). -/
inductive Session (E : Type) where
  /-- The select was answered `ok`: select, write, deselect. -/
  | full (burst : List Byte) (write release : Answer E)
  /-- The select failed and the block released: select, deselect. -/
  | released (e : E) (release : Answer E)
  /-- The select failed and the block did not release: select alone. -/
  | abandoned (e : E)
  deriving DecidableEq, Repr

/-- The events of a session, in order (41_bus_transaction.md R119). -/
def sessionEvents : Session E → List (Event E)
  | .full burst w d =>
    [.issue .select, .answer .ok, .issue (.write burst), .answer w, .issue .deselect, .answer d]
  | .released e d => [.issue .select, .answer (.err e), .issue .deselect, .answer d]
  | .abandoned e => [.issue .select, .answer (.err e)]

/-- Which sessions RELEASE_ON_SELECT_FAIL allows (41_bus_transaction.md R107). -/
def sessionAllowed (release : Bool) : Session E → Bool
  | .full _ _ _ => true
  | .released _ _ => release
  | .abandoned _ => !release

/-- The answer in the latch, as a trace event. -/
def latchedAnswer (s : State E) : List (Event E) :=
  match s.ans with
  | none => []
  | some a => [.answer a]

/-- The answer the write got, as the block recorded it (41_bus_transaction.md R108). -/
def writeAnswerOf (s : State E) : Answer E :=
  match s.wrFail with
  | none => .ok
  | some e => .err e

/-- The events of the session in progress so far, as the phase tells them. -/
def pendingEvents (s : State E) : List (Event E) :=
  match s.phase, s.selFail with
  | .idle, _ => []
  | .selWait, _ => .issue .select :: latchedAnswer s
  | .wrWait, _ => [.issue .select, .answer .ok, .issue (.write s.wbuf)] ++ latchedAnswer s
  | .deselWait, none =>
    [.issue .select, .answer .ok, .issue (.write s.wbuf), .answer (writeAnswerOf s), .issue .deselect] ++ latchedAnswer s
  | .deselWait, some e => [.issue .select, .answer (.err e), .issue .deselect] ++ latchedAnswer s

/-- The bus discipline (41_bus_transaction.md R115, 20_memory.md R50 and R54): the trace is complete sessions, each one
that RELEASE_ON_SELECT_FAIL allows, followed by the session in progress; a release after a failed select is in progress
only if RELEASE_ON_SELECT_FAIL asks for it. -/
def SessionTrace (release : Bool) (s : State E) : Prop :=
  (s.phase = .deselWait → s.selFail ≠ none → release = true) ∧
  ∃ done : List (Session E),
    (∀ x ∈ done, sessionAllowed release x = true) ∧ s.trace = done.flatMap sessionEvents ++ pendingEvents s

/-! ### Launch premises and duties (70_reset_and_hazards.md R146 and R147) -/

/-- CLEAN_RESET: "the state is the reset state of 10_state.md rule R38". -/
def CleanReset (s : State) : Prop := s = State.reset

/-- TRANSPORT_DESELECTED_AT_RESET, as far as the block's own record goes; the line itself is the transport's
(10_state.md R35). CONFIG_FIXED needs no predicate: the configuration is constants. -/
def TransportDeselected (s : State E) : Prop := s.bus = .released

/-- HOST_SEQUENTIAL, at the one move that can break it (70_reset_and_hazards.md R147): the host writes only when the
response to its previous request has been driven. -/
def HostSequential (s : State E) : Prop :=
  s.turn = .post → s.req = none → s.phase = .idle ∧ s.fault = .none

/-- What HOST_SEQUENTIAL keeps: a request waits in the latch only while no transaction is in progress. -/
def LatchedInIdle (s : State E) : Prop := s.req ≠ none → s.phase = .idle

/-- Whether a move is enabled (41_bus_transaction.md R101 and R102, 10_state.md R27 and R28). -/
def enabled (m : Move) (s : State E) : Bool :=
  match m with
  | .accept => s.fetch.isSome
  | .act => decide (s.fault = .none) && decide (s.phase ≠ .idle) && s.ans.isSome
  | .answer => s.outstanding
  | .post => s.req.isNone

/-- TRANSPORT_RESPONDS with weak fairness (70_reset_and_hazards.md R154): along the run from `s`, a move that stays
enabled is eventually the one whose turn it is. A premise for liveness claims; the schedule promises nothing. -/
def WeaklyFair (m : Move) (s : State) : Prop :=
  ∀ k, (∀ j t, Sys2Proof.core.run (k + j) s = .next t → enabled m t = true) →
    ∃ j t, Sys2Proof.core.run (k + j) s = .next t ∧ t.turn = m

/-- TRANSPORT_RESPONDS (70_reset_and_hazards.md R148): the transport answers every call eventually. -/
def TransportResponds (s : State) : Prop := WeaklyFair .answer s

/-! ### The end of a run -/

/-- States that are never an end (70_reset_and_hazards.md R155): a fault is set, or a call is outstanding. -/
def neverEnd (s : State E) : Bool := decide (s.fault ≠ .none) || s.outstanding

/-- A safe state: no sticky fault, and R37 holds. -/
def Safe (s : State E) : Prop := s.fault = .none ∧ Inv s

/-! ### Renaming failure values -/

/-- An answer with its failure value renamed. -/
def renameAnswer (f : E → E') : Answer E → Answer E'
  | .ok => .ok
  | .err e => .err (f e)

/-- A trace event with its failure value renamed. -/
def renameEvent (f : E → E') : Event E → Event E'
  | .issue c => .issue c
  | .answer a => .answer (renameAnswer f a)

/-- A response with its failure values renamed. -/
def renameResponse (f : E → E') (r : Response E) : Response E' :=
  { status := r.status, stage := r.stage, releaseFailed := r.releaseFailed, err := r.err.map f
    errRelease := r.errRelease.map f, frame := r.frame, length := r.length }

/-- A state with every failure value renamed; "the block never inspects it" (00_scope.md R9) says that the block's moves
commute with this. -/
def renameState (f : E → E') (s : State E) : State E' :=
  { phase := s.phase, req := s.req, curOp := s.curOp, curPd := s.curPd, curFrame := s.curFrame, wbuf := s.wbuf
    bus := s.bus, fault := s.fault, turn := s.turn, draws := s.draws
    ans := s.ans.map (renameAnswer f), selFail := s.selFail.map f, wrFail := s.wrFail.map f
    resp := s.resp.map (renameResponse f), trace := s.trace.map (renameEvent f) }

/-- An action with its failure value renamed. -/
def renameAction (f : E → E') : Action E → Action E'
  | .accept => .accept
  | .act => .act
  | .answer a => .answer (renameAnswer f a)
  | .post r => .post r

/-- An outcome with its next state mapped. -/
def mapOutcome (g : State E → State E') :
    Host.Outcome (State E) Fault Refusal → Host.Outcome (State E') Fault Refusal
  | .next s => .next (g s)
  | .fault r => .fault r
  | .refused r => .refused r

/-- A state with its response and bus record replaced: the two fields "never read by any step of the block"
(10_state.md R36). -/
def withHistory (resp : Option (Response E)) (bus : BusState) (s : State E) : State E :=
  { s with resp := resp, bus := bus }

end Sys2Proof.Safety
end

