-- ==== Sys2Proof/WellFormed.lean ====
section
/-! DEFINITION. Well-formedness of instructions and of responses. -/

namespace Sys2Proof

/-- "No `data` value makes a request illegal at decode time" (30_encoding.md R71), "A WRITE_FRAME operand is never
rejected, whatever its length or content" (R75), and the catalog command has no operand. So no instruction term is
ill-formed; an over-long PD is an outcome of the operation, not a refusal. -/
def Instr.wellFormed : Instr → Bool
  | .encode _ => true
  | .writeFrame _ => true
  | .sendCommand _ => true
  | .reserved _ => true
  | .getFirmwareVersion _ => true
  | .spiDataWrite _ => true

/-- A response the block may produce (10_state.md R24 and R32): `stage` is NONE unless the status is TRANSPORT_ERROR;
`release_failed` only with stage SELECT or WRITE; `err` exactly with a transport error; `err_release` exactly with
`release_failed`; `length` exactly with LENGTH_OVERFLOW; no frame with LENGTH_OVERFLOW. -/
def Response.wellFormed {E : Type} (r : Response E) : Bool :=
  (decide (r.stage = .none) == !decide (r.status = .transportError)) &&
  (!r.releaseFailed || decide (r.stage = .select) || decide (r.stage = .write)) &&
  (r.err.isSome == decide (r.status = .transportError)) &&
  (r.errRelease.isSome == r.releaseFailed) &&
  (r.length.isSome == decide (r.status = .lengthOverflow)) &&
  !(r.frame.isSome && decide (r.status = .lengthOverflow))

/-- A status byte the block may produce (10_state.md R32, 93_implementation_defined.md I10): bits [7:5] are 000, status
11 is reserved, `stage` is not 00 exactly with status 10, and `release_failed` goes with stage 01 or 10. -/
def statusByteWellFormed (b : Byte) : Bool :=
  b.extractLsb' 5 3 == 0 &&
  b.extractLsb' 0 2 != 3 &&
  ((b.extractLsb' 2 2 == 0) == (b.extractLsb' 0 2 != 2)) &&
  (b.extractLsb' 4 1 == 0 || b.extractLsb' 2 2 == 1 || b.extractLsb' 2 2 == 2)

end Sys2Proof
end

