-- ==== Sys2Proof/Certificates/Slice0/Obligations.lean ====
section
/-! DEFINITION. The statements for the provers. A rule of spec/ that the spec itself marks as derived is cited by its
section; a clause that rests on the model's own choice names the log entry. A statement about the block's
operations takes the failure type `E` as an argument; one about exec, a move or a step is about the configuration's
`TErr`, whose values no proof can count (log entry 2). -/

open Sys2Proof Sys2Proof.Machine Sys2Proof.Safety

/-! ### Encodings -/

/-- Decoding an encoded instruction gives it back, and whatever decodes re-encodes to the same bytes, but for the unused
bits [7:2] of the op byte (the model's choice, log entry 6). 30_encoding.md R59, R65, R70, R73. -/
def Obligations.DecodeEncodeBothWays : Prop :=
  (∀ i : Instr, i.wellFormed = true → decode (encode i).1 (encode i).2 = .ok i) ∧
  (∀ (fmt : Format) (bytes : List Byte) (i : Instr), decode fmt bytes = .ok i →
    i.wellFormed = true ∧ (encode i).1 = fmt ∧ (encode i).2 = canonicalBytes fmt bytes)

/-- 30_encoding.md section 2 (its rules 70 and 71): op decoding is total, each op selects its row, data is not decoded.
The last clause, a byte that carries the op in its two low bits with bits [7:2] not looked at, is the model's choice
(log entry 6, DESIGN CHOICE): the rules speak of a 2-bit op only. -/
def Obligations.OpSelectsExactlyOneRow : Prop :=
  ∀ data : List Byte,
    decodeRequest ⟨0, data⟩ = .encode data ∧ decodeRequest ⟨1, data⟩ = .writeFrame data ∧
    decodeRequest ⟨2, data⟩ = .sendCommand data ∧ decodeRequest ⟨3, data⟩ = .reserved data ∧
    ∀ b : Byte, decode .request (b :: data) = .ok (decodeRequest ⟨b.setWidth 2, data⟩)

/-- A sanity statement on words written out from 30_encoding.md R60, R70, R73 and the programs of 95_test_vectors.md; the
byte layout of a request (log entry 6), the formats command and burst (log entries 7 and 9) and the four named refusals
(log entries 7 and 9, DEDUCED) are the model's: no rule of the spec gives a refusal. -/
def Obligations.SpecWordsDecode : Prop :=
  decode .request [0x00, 0x14, 0x01] = .ok (.encode [0x14, 0x01]) ∧
  decode .request [0x01, 0x01, 0x02] = .ok (.writeFrame [0x01, 0x02]) ∧
  decode .request [0x02, 0x4A, 0x01, 0x00] = .ok (.sendCommand [0x4A, 0x01, 0x00]) ∧
  decode .request [0x03] = .ok (.reserved []) ∧
  decode .command [0x00, 0x02] = .ok (.getFirmwareVersion .encode) ∧
  decode .command [0x02, 0x02] = .ok (.getFirmwareVersion .sendCommand) ∧
  decode .burst [0x01, 0x00, 0x00, 0xFF] = .ok (.spiDataWrite [0x00, 0x00, 0xFF]) ∧
  decode .burst [0x02] = .error (.otherFunctionSelect 0x02) ∧
  decode .command [0x02, 0x4A] = .error (.notInCatalog 0x4A) ∧
  decode .command [0x01, 0x02] = .error (.notACarrier 1) ∧
  decode .request [] = .error .truncated

/-- 30_encoding.md R78: the three pseudo-requests, and the bound of 253 argument bytes after the command code. -/
def Obligations.PseudoRequestsExpand : Prop :=
  (∀ (code : Byte) (extra : List Byte),
    decodeRequest (PseudoRequest.cmd code extra).expand = .sendCommand (code :: extra) ∧
    decodeRequest (PseudoRequest.encodeCmd code extra).expand = .encode (code :: extra) ∧
    ((∃ n, enc (code :: extra) = .lengthOverflow n) ↔ extra.length > 253)) ∧
  decodeRequest PseudoRequest.getFirmwareVersion.expand = .sendCommand [0x02]

/-! ### The frame encoder -/

/-- 40_frame_encoder.md R82: the length check comes first; "So n = 254 encodes and n = 255 fails." -/
def Obligations.EncoderLengthCheck : Prop :=
  ∀ pd : List Byte,
    (pd.length > 254 → enc pd = .lengthOverflow pd.length) ∧ (pd.length ≤ 254 → ∃ f, enc pd = .frame f)

/-- 40_frame_encoder.md R83, R84, R85, R87: the layout and the three computed bytes; LEN and LCS as numbers. The
accumulator is the rule's loop, written as a left fold. -/
def Obligations.FrameLayoutAndChecksums : Prop :=
  ∀ pd : List Byte, pd.length ≤ 254 →
    enc pd = .frame
      ([0x00, 0x00, 0xFF, BitVec.ofNat 8 (pd.length + 1), lo8 (-((pd.length : Int) + 1)), 0xD4] ++ pd ++
        [lo8 (pd.foldl (fun acc b => acc - (b.toNat : Int)) (-0xD4)), 0x00]) ∧
    (BitVec.ofNat 8 (pd.length + 1)).toNat = pd.length + 1 ∧
    (lo8 (-((pd.length : Int) + 1))).toNat = 256 - (pd.length + 1)

/-- lo8 is the mathematical modulus in 0..255, for negative integers too (00_scope.md section 3). -/
def Obligations.LowByteIsModulus : Prop :=
  (∀ v : Int, ((lo8 v).toNat : Int) = v % 256 ∧ 0 ≤ v % 256 ∧ v % 256 < 256) ∧ lo8 (-2) = 0xFE ∧ lo8 (-214) = 0x2A

/-- The closed form of DCS and the 8-bit accumulator (40_frame_encoder.md section 1, its rule 88, which the spec marks as
derived). -/
def Obligations.DcsClosedFormAndByteAccumulator : Prop :=
  ∀ pd : List Byte, dcsByte pd = lo8 (-(0xD4 + (byteSum pd : Int))) ∧ dcsByte pd = dcsLoop8 0x2C pd

/-- When DCS is 00 and when it is 2C, and that every byte is some operand's DCS (40_frame_encoder.md section 1, its rule
89, which the spec marks as derived). -/
def Obligations.DcsRange : Prop :=
  (∀ pd : List Byte, dcsByte pd = 0x00 ↔ (0xD4 + byteSum pd) % 256 = 0) ∧
  (∀ pd : List Byte, byteSum pd % 256 = 0 → dcsByte pd = 0x2C) ∧
  (∀ b : Byte, ∃ pd : List Byte, pd.length ≤ 254 ∧ dcsByte pd = b)

/-- The laws of every produced frame: both checksums, the length, PD verbatim, and validity as the chip checks it
(40_frame_encoder.md section 4, its rule 97, and 30_encoding.md section 5). -/
def Obligations.ProducedFramesObeyLaws : Prop :=
  ∀ pd f : List Byte, enc pd = .frame f →
    ((byteAt f 3).toNat + (byteAt f 4).toNat) % 256 = 0 ∧
    (0xD4 + byteSum pd + (byteAt f (6 + pd.length)).toNat) % 256 = 0 ∧
    f.length = pd.length + 8 ∧
    (f.drop 6).take pd.length = pd ∧
    frameValid f = true

/-- The offset map of the frame and of the burst (20_memory.md section 4). -/
def Obligations.FrameAndBurstOffsets : Prop :=
  ∀ pd f : List Byte, enc pd = .frame f →
    f[0]? = some 0x00 ∧ f[1]? = some 0x00 ∧ f[2]? = some 0xFF ∧
    f[3]? = some (BitVec.ofNat 8 (pd.length + 1)) ∧ f[4]? = some (lo8 (-((pd.length : Int) + 1))) ∧ f[5]? = some 0xD4 ∧
    (∀ k, k < pd.length → f[6 + k]? = pd[k]?) ∧
    f[6 + pd.length]? = some (lo8 (-(0xD4 + (byteSum pd : Int)))) ∧ f[7 + pd.length]? = some 0x00 ∧
    f[8 + pd.length]? = none ∧
    (burstOf f)[0]? = some 0x01 ∧ ∀ k, (burstOf f)[k + 1]? = f[k]?

/-- Two operands that both encode give different frames if they differ (30_encoding.md section 5, its rule 80). -/
def Obligations.EncoderIsInjective : Prop :=
  ∀ pd pd' f : List Byte, enc pd = .frame f → enc pd' = .frame f → pd = pd'

/-- Frames never produced, and lengths from the LEN byte (30_encoding.md section 3, its rule 76; section 1, its rule 67;
00_scope.md section 2, its rule 8). -/
def Obligations.NeverProducedFramesAndSizes : Prop :=
  ∀ pd f : List Byte, enc pd = .frame f →
    (byteAt f 3).toNat ≥ 1 ∧ byteAt f 4 ≠ 0x00 ∧
    (byteAt f 3 = 0xFF → byteAt f 4 = 0x01 ∧ pd.length = 254) ∧
    f.length = (byteAt f 3).toNat + 7 ∧ (burstOf f).length = (byteAt f 3).toNat + 8 ∧
    8 ≤ f.length ∧ f.length ≤ 262

/-! ### What each instruction does -/

/-- ENCODE completes, and its response (40_frame_encoder.md R91): on success OK with the frame and everything else NONE,
false or none; on LengthOverflow the operand's length and no frame. -/
def Obligations.EncodeCompletes : Prop :=
  ∀ (pd : List Byte) (s : State), s.fault = .none → s.phase = .idle →
    (pd.length ≤ 254 → ∃ f t, enc pd = .frame f ∧ exec (.encode pd) s = .next t ∧
      t.resp = some ⟨.ok, .none, false, none, none, some f, none⟩) ∧
    (pd.length > 254 → ∃ t, exec (.encode pd) s = .next t ∧
      t.resp = some ⟨.lengthOverflow, .none, false, none, none, none, some pd.length⟩)

/-- The frame of ENCODE (40_frame_encoder.md section 2, its rule 92, which the spec marks as derived): no event and no
change of `bus` in every case; accepted in IDLE it writes the latch, the response, and the current-request and
transaction fields that are cleared as a response is driven (the model's reading, log entry 11); from a clean IDLE only
the latch and the response change. -/
def Obligations.EncodeFrameConditions : Prop :=
  ∀ (pd : List Byte) (s t : State), exec (.encode pd) s = .next t →
    t.trace = s.trace ∧ t.bus = s.bus ∧ t.phase = s.phase ∧ t.ans = s.ans ∧ t.turn = s.turn ∧ t.draws = s.draws ∧
    (s.phase = .idle → t =
      { s with
        req := none, resp := t.resp, curOp := none, curPd := [], curFrame := none, wbuf := []
        selFail := none, wrFail := none }) ∧
    (s.phase = .idle → IdleClean s → t = { s with req := none, resp := t.resp })

/-- WRITE_FRAME completes its accept step for any frame at all, unchecked: BEGIN(frame) of 41_bus_transaction.md R103
after the capture of the operand; every other field is unchanged. -/
def Obligations.WriteFrameBeginsBurst : Prop :=
  ∀ (frame : List Byte) (s : State), s.fault = .none → s.phase = .idle →
    exec (.writeFrame frame) s = .next
      { s with
        req := none, curOp := some .writeFrame, curPd := frame, curFrame := none
        wbuf := 0x01 :: frame, trace := s.trace ++ [.issue .select], phase := .selWait }

/-- SPI_DATA_WRITE completes: BEGIN(frame) of 41_bus_transaction.md section 1 (its rule 103) and nothing else; every other
field is unchanged. That the table's row is this operation, no request, which leaves the latch and the current-request
fields alone, is the model's reading (log entry 8, DEDUCED); in the rule 0x01 is the byte in front of the frame. -/
def Obligations.SpiDataWriteBeginsBurst : Prop :=
  ∀ (frame : List Byte) (s : State), s.fault = .none → s.phase = .idle →
    exec (.spiDataWrite frame) s = .next
      { s with wbuf := 0x01 :: frame, trace := s.trace ++ [.issue .select], phase := .selWait }

/-- SEND_COMMAND of a PD that fits completes its accept step: the encoded frame is kept and its burst begun
(41_bus_transaction.md section 4); every other field is unchanged. -/
def Obligations.SendCommandBeginsBurst : Prop :=
  ∀ (pd : List Byte) (s : State), s.fault = .none → s.phase = .idle → pd.length ≤ 254 →
    ∃ f, enc pd = .frame f ∧
      exec (.sendCommand pd) s = .next
        { s with
          req := none, curOp := some .sendCommand, curPd := pd, curFrame := some f
          wbuf := 0x01 :: f, trace := s.trace ++ [.issue .select], phase := .selWait }

/-- SEND_COMMAND of an over-long PD: a LengthOverflow response, no transport call, nothing in the trace, `bus` unchanged
(41_bus_transaction.md section 4, its rule 113). The cleared fields are log entry 11. -/
def Obligations.SendCommandOverflowTouchesNoBus : Prop :=
  ∀ (pd : List Byte) (s : State), s.fault = .none → s.phase = .idle → pd.length > 254 →
    exec (.sendCommand pd) s = .next
      { s with
        req := none, curOp := none, curPd := [], curFrame := none, wbuf := [], selFail := none, wrFail := none
        resp := some ⟨.lengthOverflow, .none, false, none, none, none, some pd.length⟩ }

/-- The reserved op completes by taking the sticky fault RESERVED_OP (41_bus_transaction.md section 1,
60_exceptions.md section 1); no response, no event, every other field unchanged. -/
def Obligations.ReservedOpSetsFault : Prop :=
  ∀ (data : List Byte) (s : State), s.fault = .none → s.phase = .idle →
    exec (.reserved data) s = .next { s with req := none, fault := .reservedOp }

/-- GET_FIRMWARE_VERSION (40_frame_encoder.md R94): it completes under either carrier, with the corrected bytes of the
rule; it is its carrying request with PD = [02]; the pseudo-request is the one carried by SEND_COMMAND. -/
def Obligations.GetFirmwareVersionBytes : Prop :=
  (∀ s : State, s.fault = .none → s.phase = .idle →
    (∃ t, exec (.getFirmwareVersion .encode) s = .next t ∧
      t.resp = some ⟨.ok, .none, false, none, none,
        some [0x00, 0x00, 0xFF, 0x02, 0xFE, 0xD4, 0x02, 0x2A, 0x00], none⟩) ∧
    exec (.getFirmwareVersion .sendCommand) s = .next
      { s with
        req := none, curOp := some .sendCommand, curPd := [0x02]
        curFrame := some [0x00, 0x00, 0xFF, 0x02, 0xFE, 0xD4, 0x02, 0x2A, 0x00]
        wbuf := [0x01, 0x00, 0x00, 0xFF, 0x02, 0xFE, 0xD4, 0x02, 0x2A, 0x00]
        trace := s.trace ++ [.issue .select], phase := .selWait }) ∧
  (∀ s : State,
    exec (.getFirmwareVersion .encode) s = exec (.encode [0x02]) s ∧
    exec (.getFirmwareVersion .sendCommand) s = exec (.sendCommand [0x02]) s) ∧
  decodeRequest PseudoRequest.getFirmwareVersion.expand = .sendCommand [0x02]

/-- The marker is the last part of both writing requests: WRITE_FRAME is the capture of its operand followed by
SPI_DATA_WRITE, and SEND_COMMAND the same with the encoded frame (41_bus_transaction.md sections 1, 2 and 4). That
SPI_DATA_WRITE is an operation, BEGIN after the capture, is the model's reading (log entry 8, DEDUCED). -/
def Obligations.WritesEndInDataWriteMarker : Prop :=
  ∀ (s : State) (data f : List Byte), s.fault = .none → s.phase = .idle →
    exec (.writeFrame data) s = exec (.spiDataWrite data)
      { s with req := none, curOp := some .writeFrame, curPd := data, curFrame := none } ∧
    (enc data = .frame f →
      exec (.sendCommand data) s = exec (.spiDataWrite f)
        { s with req := none, curOp := some .sendCommand, curPd := data, curFrame := some f })

/-- Every request accepted during a transaction faults REENTRANT before its op is decoded, and changes nothing else but
the latch (60_exceptions.md section 3, 41_bus_transaction.md section 1). -/
def Obligations.BusyRequestFaultsReentrant : Prop :=
  ∀ (i : Instr) (s : State), i.toRequest ≠ none → s.fault = .none → s.phase ≠ .idle →
    exec i s = .next { s with req := none, fault := .reentrant }

/-- The model's choice (log entry 8): a burst begun while a session is in progress faults REENTRANT; the latch is not
touched, since SPI_DATA_WRITE is no request. -/
def Obligations.BusyDataWriteFaultsReentrant : Prop :=
  ∀ (frame : List Byte) (s : State), s.fault = .none → s.phase ≠ .idle →
    exec (.spiDataWrite frame) s = .next { s with fault := .reentrant }

/-- The model's reading (log entry 10) of "no block step is enabled": with a fault already set every meaning stops by
name, and without one every meaning has a next state. -/
def Obligations.MeaningsStopOnlyWhenBlockStopped : Prop :=
  ∀ (i : Instr) (s : State),
    (s.fault ≠ .none → exec i s = .fault (.blockStopped s.fault)) ∧ (s.fault = .none → ∃ t, exec i s = .next t)

/-! ### The sequencer -/

/-- 41_bus_transaction.md R105, for either value of RELEASE_ON_SELECT_FAIL and any failure type. -/
def Obligations.SelectOkWritesWholeBurst : Prop :=
  ∀ (E : Type) (release : Bool) (s : State E), s.fault = .none → s.phase = .selWait → s.ans = some .ok →
    s.act release =
      { s with ans := none, bus := .acquired, trace := s.trace ++ [.issue (.write s.wbuf)], phase := .wrWait }

/-- 41_bus_transaction.md R106 and R107: after a failed select the write is never issued; a deselect is, exactly when
RELEASE_ON_SELECT_FAIL is true; otherwise FINISH(none) reports stage SELECT. -/
def Obligations.FailedSelectNeverWrites : Prop :=
  ∀ (E : Type) (e : E) (s : State E), s.fault = .none → s.phase = .selWait → s.ans = some (.err e) →
    s.act true =
      { s with
        ans := none, bus := .indeterminate, selFail := some e
        trace := s.trace ++ [.issue .deselect], phase := .deselWait } ∧
    s.act false =
      { s with
        ans := none, bus := .indeterminate, phase := .idle
        curOp := none, curPd := [], curFrame := none, wbuf := [], selFail := none, wrFail := none
        resp := some ⟨.transportError, .select, false, some e, none, s.curFrame, none⟩ }

/-- 41_bus_transaction.md R108: whatever the write's answer, the block releases the bus; a failure is recorded. -/
def Obligations.WriteAnsweredReleasesBus : Prop :=
  ∀ (E : Type) (release : Bool) (a : Answer E) (s : State E), s.fault = .none → s.phase = .wrWait → s.ans = some a →
    s.act release =
      { s with
        ans := none, wrFail := (match a with | .ok => s.wrFail | .err e => some e)
        trace := s.trace ++ [.issue .deselect], phase := .deselWait }

/-- 41_bus_transaction.md R109: the deselect's answer sets the line's record, then FINISH. -/
def Obligations.DeselectAnsweredFinishes : Prop :=
  ∀ (E : Type) (release : Bool) (a : Answer E) (s : State E), s.fault = .none → s.phase = .deselWait → s.ans = some a →
    s.act release =
      State.finish (some a)
        { s with ans := none, bus := (match a with | .ok => .released | .err _ => .indeterminate) }

/-- 41_bus_transaction.md R110: FINISH(d) for every d: the first failed call is the one reported, a later failed
deselect is flagged, the fields are cleared and the block is in IDLE; every other field is unchanged. -/
def Obligations.FinishReportsFirstFailure : Prop :=
  ∀ (E : Type) (d : Option (Answer E)) (s : State E), ∃ r : Response E,
    State.finish d s =
      { s with
        resp := some r, phase := .idle
        curOp := none, curPd := [], curFrame := none, wbuf := [], selFail := none, wrFail := none } ∧
    (∀ e, s.selFail = some e → r.status = .transportError ∧ r.stage = .select ∧ r.err = some e) ∧
    (∀ e, s.selFail = none → s.wrFail = some e → r.status = .transportError ∧ r.stage = .write ∧ r.err = some e) ∧
    (∀ e, s.selFail = none → s.wrFail = none → d = some (.err e) →
      r.status = .transportError ∧ r.stage = .deselect ∧ r.err = some e) ∧
    (s.selFail = none → s.wrFail = none → (∀ e, d ≠ some (.err e)) →
      r.status = .ok ∧ r.stage = .none ∧ r.err = none) ∧
    (r.releaseFailed = true ↔ (s.selFail ≠ none ∨ s.wrFail ≠ none) ∧ ∃ e, d = some (.err e)) ∧
    (∀ e, r.releaseFailed = true → d = some (.err e) → r.errRelease = some e) ∧
    (r.releaseFailed = false → r.errRelease = none) ∧
    r.frame = s.curFrame ∧ r.length = none

/-- The outcome table of 41_bus_transaction.md section 5 (its rule 119), for a WRITE_FRAME request taken from a clean
IDLE: the whole session, row by row, for every answer and both values of RELEASE_ON_SELECT_FAIL. -/
def Obligations.WriteFrameOutcomeTable : Prop :=
  ∀ (s : State) (frame : List Byte), s.fault = .none → s.phase = .idle → IdleClean s → s.req = some ⟨1, frame⟩ →
    (∀ (release : Bool) (w d : Answer TErr),
      performAll release [.accept, .answer .ok, .act, .answer w, .act, .answer d, .act] s = .next
        { s with
          req := none
          bus := (match d with | .ok => .released | .err _ => .indeterminate)
          trace := s.trace ++ [.issue .select, .answer .ok, .issue (.write (0x01 :: frame)), .answer w, .issue .deselect,
            .answer d]
          resp := some (match w, d with
            | .ok, .ok => ⟨.ok, .none, false, none, none, none, none⟩
            | .ok, .err e3 => ⟨.transportError, .deselect, false, some e3, none, none, none⟩
            | .err e2, .ok => ⟨.transportError, .write, false, some e2, none, none, none⟩
            | .err e2, .err e3 => ⟨.transportError, .write, true, some e2, some e3, none, none⟩) }) ∧
    (∀ (e1 : TErr) (d : Answer TErr),
      performAll true [.accept, .answer (.err e1), .act, .answer d, .act] s = .next
        { s with
          req := none
          bus := (match d with | .ok => .released | .err _ => .indeterminate)
          trace := s.trace ++ [.issue .select, .answer (.err e1), .issue .deselect, .answer d]
          resp := some (match d with
            | .ok => ⟨.transportError, .select, false, some e1, none, none, none⟩
            | .err e3 => ⟨.transportError, .select, true, some e1, some e3, none, none⟩) }) ∧
    (∀ e1 : TErr,
      performAll false [.accept, .answer (.err e1), .act] s = .next
        { s with
          req := none, bus := .indeterminate
          trace := s.trace ++ [.issue .select, .answer (.err e1)]
          resp := some ⟨.transportError, .select, false, some e1, none, none, none⟩ })

/-- The same table for a SEND_COMMAND whose PD encodes: the burst is the encoded frame's, and the response carries the
frame whatever the transport did (41_bus_transaction.md sections 4 and 5, its rules 114 and 119). -/
def Obligations.SendCommandOutcomeTable : Prop :=
  ∀ (s : State) (pd f : List Byte), s.fault = .none → s.phase = .idle → IdleClean s → s.req = some ⟨2, pd⟩ →
    enc pd = .frame f →
    (∀ (release : Bool) (w d : Answer TErr),
      performAll release [.accept, .answer .ok, .act, .answer w, .act, .answer d, .act] s = .next
        { s with
          req := none
          bus := (match d with | .ok => .released | .err _ => .indeterminate)
          trace := s.trace ++ [.issue .select, .answer .ok, .issue (.write (0x01 :: f)), .answer w, .issue .deselect,
            .answer d]
          resp := some (match w, d with
            | .ok, .ok => ⟨.ok, .none, false, none, none, some f, none⟩
            | .ok, .err e3 => ⟨.transportError, .deselect, false, some e3, none, some f, none⟩
            | .err e2, .ok => ⟨.transportError, .write, false, some e2, none, some f, none⟩
            | .err e2, .err e3 => ⟨.transportError, .write, true, some e2, some e3, some f, none⟩) }) ∧
    (∀ (e1 : TErr) (d : Answer TErr),
      performAll true [.accept, .answer (.err e1), .act, .answer d, .act] s = .next
        { s with
          req := none
          bus := (match d with | .ok => .released | .err _ => .indeterminate)
          trace := s.trace ++ [.issue .select, .answer (.err e1), .issue .deselect, .answer d]
          resp := some (match d with
            | .ok => ⟨.transportError, .select, false, some e1, none, some f, none⟩
            | .err e3 => ⟨.transportError, .select, true, some e1, some e3, some f, none⟩) }) ∧
    (∀ e1 : TErr,
      performAll false [.accept, .answer (.err e1), .act] s = .next
        { s with
          req := none, bus := .indeterminate
          trace := s.trace ++ [.issue .select, .answer (.err e1)]
          resp := some ⟨.transportError, .select, false, some e1, none, some f, none⟩ })

/-- 41_bus_transaction.md R120: while the transport does not answer, the block stays in its wait phase, drives no
response, and accepts a request only by faulting REENTRANT, whatever else is tried and however often. -/
def Obligations.UnansweredCallHangs : Prop :=
  ∀ (release : Bool) (as : List (Action TErr)) (s t : State), s.phase ≠ .idle → s.ans = none →
    (∀ x ∈ as, ∀ a, x ≠ .answer a) → performAll release as s = .next t →
      t.phase = s.phase ∧ t.ans = none ∧ t.resp = s.resp ∧ t.trace = s.trace ∧ t.bus = s.bus ∧
      t.curOp = s.curOp ∧ t.curPd = s.curPd ∧ t.curFrame = s.curFrame ∧ t.wbuf = s.wbuf ∧
      (t.fault = s.fault ∨ t.fault = .reentrant) ∧ (∀ r, s.req = some r → t.fault = s.fault → t.req = some r)

/-- Bounded liveness (70_reset_and_hazards.md sections 2 and 3): with no request posted meanwhile, a session in progress
has completed with a response once three answers have each been followed by a block step, whatever stands between. -/
def Obligations.ThreeAnswersCompleteSession : Prop :=
  ∀ (release : Bool) (as : List (Action TErr)) (s : State), s.fault = .none → s.phase ≠ .idle → s.req = none →
    (∀ x ∈ as, ∀ r, x ≠ .post r) →
    (∃ a1 a2 a3, [Action.answer a1, .act, .answer a2, .act, .answer a3, .act].Sublist as) →
      ∃ pre suf t, as = pre ++ suf ∧ performAll release pre s = .next t ∧
        t.phase = .idle ∧ t.fault = .none ∧ ∃ r, t.resp = some r

/-! ### Whole-machine rules -/

/-- A step at the block's turn to accept runs the decoded request, and then the model's own bookkeeping (log entry 3):
one draw more, and the schedule's next move (41_bus_transaction.md section 1). -/
def Obligations.StepRunsDecodedRequest : Prop :=
  (∀ (s : State) (r : Request), s.turn = .accept → s.fault = .none → s.req = some r →
    step s = tickAfter (exec (decodeRequest r) s)) ∧
  (∀ (s : State) (b : Byte) (data : List Byte) (i : Instr), s.turn = .accept → s.fault = .none →
    s.req = some ⟨opOfByte b, data⟩ → decode .request (b :: data) = .ok i → step s = tickAfter (exec i s)) ∧
  (∀ s : State, tickAfter (.next s) = .next { s with draws := s.draws + 1, turn := Config.schedule s.draws })

/-- A table word placed where the machine fetches is the instruction the next step runs (log entries 7 and 15). -/
def Obligations.FetchWordRunsNext : Prop :=
  ∀ (s : State) (nbits w : Nat) (i : Instr), s.fault = .none → decodeTableWord nbits w = some i →
    step (s.withFetchWord nbits w) = tickAfter (exec i (s.withFetchWord nbits w))

/-- The other moves of a step, and that a move that is not enabled changes only `turn` and `draws` (log entry 3): an
accept with a fault set or nothing latched, an act with a fault set, in IDLE or without an answer (log entry 17), an
answer without an outstanding call, a write to a full latch (log entry 14). Which answer the transport gives and which
request the host writes are free values (log entry 4). -/
def Obligations.StepOtherMoves : Prop :=
  ∀ s : State,
    (s.turn = .accept → (s.fault ≠ .none ∨ s.req = none) → step s = .next s.tick) ∧
    (s.turn = .act → step s = .next (s.act Config.releaseOnSelectFail).tick) ∧
    (s.turn = .act → (s.fault ≠ .none ∨ s.phase = .idle ∨ s.ans = none) →
      s.act Config.releaseOnSelectFail = s ∧ step s = .next s.tick) ∧
    (s.turn = .answer → s.outstanding = true →
      step s = .next (State.tick { s with
        ans := some (Config.transportAnswer s.draws)
        trace := s.trace ++ [.answer (Config.transportAnswer s.draws)] })) ∧
    (s.turn = .answer → s.outstanding = false → step s = .next s.tick) ∧
    (s.turn = .post → s.req = none →
      step s = .next (State.tick { s with req := some (Config.hostRequest s.draws) })) ∧
    (s.turn = .post → s.req ≠ none → step s = .next s.tick)

/-- Every state has a next state. By the spec a stopped block takes no step and the transport may still answer
(60_exceptions.md section 1, its rules 126 and 127); where no agent has a move (a faulted block in IDLE with a full
latch) the step is the model's stutter of a move not enabled (log entry 3, DESIGN CHOICE). -/
def Obligations.StepAlwaysHasNext : Prop := ∀ s : State, ∃ t : State, step s = .next t

/-- The invariants of 10_state.md section 5 (its rule 37, which the spec marks as derived) are kept by every step. -/
def Obligations.StateInvariantsKept : Prop :=
  ∀ s t : State, Inv s → step s = .next t → Inv t

/-- The transaction fields hold the burst of the operand, and at most one failure is recorded: kept by every step
(10_state.md section 2, 60_exceptions.md section 3). -/
def Obligations.TransactionFieldsKept : Prop :=
  ∀ s t : State, BurstOfOperand s → OneFailure s → step s = .next t → BurstOfOperand t ∧ OneFailure t

/-- The bus discipline is kept by every step: the trace is complete sessions followed by the session in progress
(41_bus_transaction.md section 5, 20_memory.md section 5). -/
def Obligations.SessionDisciplineKept : Prop :=
  ∀ s t : State, IdleClean s → OneFailure s → SessionTrace Config.releaseOnSelectFail s → step s = .next t →
    IdleClean t ∧ OneFailure t ∧ SessionTrace Config.releaseOnSelectFail t

/-- The invariants hold at reset. -/
def Obligations.InvariantsHoldAtReset : Prop :=
  Inv State.reset ∧ BurstOfOperand State.reset ∧ OneFailure State.reset ∧
  SessionTrace Config.releaseOnSelectFail State.reset ∧ LatchedInIdle State.reset

/-- Every response driven is one the packed status byte can carry (10_state.md section 4). -/
def Obligations.ResponsesStayWellFormed : Prop :=
  ∀ s t : State, (∀ r, s.resp = some r → r.wellFormed = true) → step s = .next t →
    ∀ r, t.resp = some r → r.wellFormed = true ∧ statusByteWellFormed (statusByte r) = true

/-- 10_state.md R32: the packing, bit field by bit field, and that it reads back. -/
def Obligations.StatusBytePacking : Prop :=
  ∀ (E : Type) (r : Response E),
    (statusByte r).extractLsb' 0 2 =
      (match r.status with | .ok => 0 | .lengthOverflow => 1 | .transportError => 2 : BitVec 2) ∧
    (statusByte r).extractLsb' 2 2 =
      (match r.stage with | .none => 0 | .select => 1 | .write => 2 | .deselect => 3 : BitVec 2) ∧
    (statusByte r).getLsbD 4 = r.releaseFailed ∧
    (statusByte r).extractLsb' 5 3 = (0 : BitVec 3) ∧
    readStatusByte (statusByte r) = some (r.status, r.stage, r.releaseFailed)

/-- Under HOST_SEQUENTIAL no step faults REENTRANT, and a request waits only in IDLE (70_reset_and_hazards.md sections 2
and 3). -/
def Obligations.SequentialHostNeverReentrant : Prop :=
  ∀ s t : State, HostSequential s → LatchedInIdle s → step s = .next t →
    LatchedInIdle t ∧ (t.fault = .reentrant → s.fault = .reentrant)

/-- What sets the sticky faults, clearing the latch (60_exceptions.md section 1, its rule 126; 41_bus_transaction.md section
1, its rule 102), and that with one set the block takes no step: an accept or an act that is tried all the same changes
nothing, which is the model's (log entry 10, DEDUCED; the stutter of a move not enabled is log entry 3, DESIGN CHOICE). -/
def Obligations.ModelFaultsStopTheBlock : Prop :=
  ∀ (release : Bool) (s : State),
    (∀ r, s.fault = .none → s.req = some r → s.phase ≠ .idle →
      perform release .accept s = .next { s with req := none, fault := .reentrant }) ∧
    (∀ data, s.fault = .none → s.req = some ⟨3, data⟩ → s.phase = .idle →
      perform release .accept s = .next { s with req := none, fault := .reservedOp }) ∧
    (s.fault ≠ .none → perform release .accept s = .next s ∧ perform release .act s = .next s)

/-- After a fault (60_exceptions.md section 1, its rule 127): the fault, the phase, the bus, the response and the
transaction fields stay; a latched request stays for ever; the trace grows by an answer at most. -/
def Obligations.FaultedStateKeepsEffects : Prop :=
  ∀ s t : State, s.fault ≠ .none → step s = .next t →
    t.fault = s.fault ∧ t.phase = s.phase ∧ t.bus = s.bus ∧ t.resp = s.resp ∧ t.curOp = s.curOp ∧ t.curPd = s.curPd ∧
    t.curFrame = s.curFrame ∧ t.wbuf = s.wbuf ∧ t.selFail = s.selFail ∧ t.wrFail = s.wrFail ∧
    (∀ r, s.req = some r → t.req = some r) ∧ (∀ a, s.ans = some a → t.ans = some a) ∧
    (t.trace = s.trace ∨ ∃ a, s.outstanding = true ∧ t.ans = some a ∧ t.trace = s.trace ++ [.answer a])

/-- 41_bus_transaction.md R111: what writes `bus`, and with which value. -/
def Obligations.BusWrittenOnlyByAnswers : Prop :=
  ∀ s t : State, step s = .next t →
    t.bus = s.bus ∨
    ∃ a, s.turn = .act ∧ s.fault = .none ∧ s.ans = some a ∧
      ((s.phase = .selWait ∧ a = .ok ∧ t.bus = .acquired) ∨
       (s.phase = .selWait ∧ a ≠ .ok ∧ t.bus = .indeterminate) ∨
       (s.phase = .deselWait ∧ a = .ok ∧ t.bus = .released) ∨
       (s.phase = .deselWait ∧ a ≠ .ok ∧ t.bus = .indeterminate))

/-- The phase moves only along the sequencer (10_state.md section 2, its rule 22). -/
def Obligations.PhaseFollowsSequencer : Prop :=
  ∀ s t : State, step s = .next t → t.phase ≠ s.phase →
    (s.phase = .idle ∧ t.phase = .selWait ∧ s.turn = .accept) ∨
    (s.phase = .selWait ∧ t.phase = .wrWait ∧ s.ans = some .ok) ∨
    (s.phase = .selWait ∧ (∃ e, s.ans = some (.err e)) ∧
      t.phase = if Config.releaseOnSelectFail then .deselWait else .idle) ∨
    (s.phase = .wrWait ∧ t.phase = .deselWait ∧ s.ans ≠ none) ∨
    (s.phase = .deselWait ∧ t.phase = .idle ∧ s.ans ≠ none)

/-- The trace only grows, by at most one event, and by whom (10_state.md section 3, its rule 29). -/
def Obligations.TraceOnlyGrows : Prop :=
  ∀ s t : State, step s = .next t →
    t.trace = s.trace ∨
    (∃ c, (s.turn = .accept ∨ s.turn = .act) ∧ s.fault = .none ∧ t.trace = s.trace ++ [.issue c]) ∨
    (∃ a, s.turn = .answer ∧ s.outstanding = true ∧ t.ans = some a ∧ t.trace = s.trace ++ [.answer a])

/-- The response changes only as a request completes (10_state.md section 2, its rule 24; 70_reset_and_hazards.md section
3, its rule 151): at once for a request latched in IDLE, or acting on the deselect's answer, or acting on a failed select that is not
released. -/
def Obligations.ResponseDrivenAtCompletion : Prop :=
  ∀ s t : State, step s = .next t → t.resp ≠ s.resp →
    s.fault = .none ∧ t.phase = .idle ∧ t.fault = .none ∧
    ((s.turn = .accept ∧ s.phase = .idle ∧ s.req ≠ none) ∨
     (s.turn = .act ∧ s.phase = .deselWait ∧ ∃ a, s.ans = some a) ∨
     (s.turn = .act ∧ s.phase = .selWait ∧ Config.releaseOnSelectFail = false ∧ ∃ e, s.ans = some (.err e)))

/-- No move reads the response or the bus record (10_state.md section 5, its rule 36): whatever the old response and the
old bus record, the moves end in the same state but for those two fields, and each of these holds one and the same newly
written value in every case or, where the moves write none, the old value. So no earlier request changes what a later
request computes, its response included, or which calls it issues; and no step reads them either. -/
def Obligations.HistoryIsNeverRead : Prop :=
  (∀ (release : Bool) (as : List (Action TErr)) (s : State),
    ∃ (t : State) (newResp : Option (Response TErr)) (newBus : Option BusState),
      ∀ (resp : Option (Response TErr)) (bus : BusState),
        performAll release as (withHistory resp bus s) = .next (withHistory (newResp.or resp) (newBus.getD bus) t)) ∧
  (∀ s : State, ∃ (t : State) (newResp : Option (Response TErr)) (newBus : Option BusState),
    ∀ (resp : Option (Response TErr)) (bus : BusState),
      step (withHistory resp bus s) = .next (withHistory (newResp.or resp) (newBus.getD bus) t))

/-- No move looks into a failure value (00_scope.md section 2, 41_bus_transaction.md section 5): replacing every failure
value, by values of any other failure type, commutes with every meaning, with the block's step on an answer and with the
transport's answer; and so every move at the configuration's failure type. -/
def Obligations.FailureValuesNeverInspected : Prop :=
  (∀ (E E' : Type) (f : E → E') (s : State E),
    (∀ data, execEncode data (renameState f s) = mapOutcome (renameState f) (execEncode data s)) ∧
    (∀ data, execWriteFrame data (renameState f s) = mapOutcome (renameState f) (execWriteFrame data s)) ∧
    (∀ data, execSendCommand data (renameState f s) = mapOutcome (renameState f) (execSendCommand data s)) ∧
    (∀ data, execReserved data (renameState f s) = mapOutcome (renameState f) (execReserved data s)) ∧
    (∀ c, execGetFirmwareVersion c (renameState f s) = mapOutcome (renameState f) (execGetFirmwareVersion c s)) ∧
    (∀ data, execSpiDataWrite data (renameState f s) = mapOutcome (renameState f) (execSpiDataWrite data s)) ∧
    (∀ release, (renameState f s).act release = renameState f (s.act release)) ∧
    (∀ a, (renameState f s).answer (renameAnswer f a) = renameState f (s.answer a))) ∧
  (∀ (f : TErr → TErr) (release : Bool) (a : Action TErr) (s : State),
    perform release (renameAction f a) (renameState f s) = mapOutcome (renameState f) (perform release a s))

/-- Both orders of a request and an answer are admitted (41_bus_transaction.md section 1, 70_reset_and_hazards.md section
3): accepting first faults REENTRANT, finishing first accepts the request in IDLE as usual. -/
def Obligations.BothOrdersAdmitted : Prop :=
  ∀ (release : Bool) (s : State) (a : Answer TErr) (data : List Byte), s.fault = .none → s.phase = .deselWait →
    s.ans = some a → s.req = some ⟨1, data⟩ →
    (∃ t, performAll release [.accept, .act] s = .next t ∧ t.fault = .reentrant ∧ t.phase = .deselWait ∧
      t.ans = some a ∧ t.trace = s.trace) ∧
    (∃ t, performAll release [.act, .accept] s = .next t ∧ t.fault = .none ∧ t.phase = .selWait ∧
      t.wbuf = 0x01 :: data ∧ t.trace = s.trace ++ [.issue .select])

/-- The host's write (10_state.md section 3; 70_reset_and_hazards.md section 2): into an empty latch only; a write to a
full latch is no move and changes nothing (log entry 14). -/
def Obligations.HostWritesOnlyEmptyLatch : Prop :=
  ∀ (release : Bool) (r : Request) (s : State),
    (s.req = none → perform release (.post r) s = .next { s with req := some r }) ∧
    (∀ r', s.req = some r' → perform release (.post r) s = .next s)

/-- No move depends on how many bytes of a failed write reached the chip, "which the block never observes"
(60_exceptions.md section 4, its rule 131; 10_state.md section 5, its rule 35), nor on any other draw that stands in the
state: the model names a draw by the counter `draws` (log entries 3 and 4) or by the length of the trace (log entry 12,
DESIGN CHOICE), and a chosen move reads neither of them, nor whose turn it is. Whatever these are, it ends in the same
state but for them, and appends the same events to the trace. -/
def Obligations.MovesDependOnNoDraw : Prop :=
  ∀ (release : Bool) (a : Action TErr) (s : State), ∃ (t : State) (new : List (Event TErr)),
    ∀ (turn : Move) (draws : Nat) (earlier : List (Event TErr)),
      perform release a { s with turn := turn, draws := draws, trace := earlier } =
        .next { t with turn := turn, draws := draws, trace := earlier ++ new }

/-- 10_state.md R38: every field of the spec's record at reset (the model's own `turn` and `draws` are no part of the
rule). -/
def Obligations.ResetValues : Prop :=
  State.reset.phase = .idle ∧ State.reset.req = none ∧ State.reset.curOp = none ∧ State.reset.curPd = [] ∧
  State.reset.curFrame = none ∧ State.reset.wbuf = [] ∧ State.reset.ans = none ∧ State.reset.selFail = none ∧
  State.reset.wrFail = none ∧ State.reset.bus = .released ∧ State.reset.resp = none ∧ State.reset.fault = .none ∧
  State.reset.trace = []
end

