-- ==== Sys2Proof/Laws/Decode.lean ====
section
/-! SUPPORT. The small lemmas of the decoder. -/

namespace Sys2Proof

/-- The op survives its byte. -/
@[simp] theorem opOfByte_byteOfOp (op : BitVec 2) : opOfByte (byteOfOp op) = op := by
  revert op; decide

@[simp] theorem decodeRequest_encode (data : List Byte) : decodeRequest ⟨0#2, data⟩ = .encode data := rfl
@[simp] theorem decodeRequest_writeFrame (data : List Byte) : decodeRequest ⟨1#2, data⟩ = .writeFrame data := rfl
@[simp] theorem decodeRequest_sendCommand (data : List Byte) : decodeRequest ⟨2#2, data⟩ = .sendCommand data := rfl
@[simp] theorem decodeRequest_reserved (data : List Byte) : decodeRequest ⟨3#2, data⟩ = .reserved data := rfl

/-- The four ops, one by one. -/
theorem op_cases (op : BitVec 2) : op = 0 ∨ op = 1 ∨ op = 2 ∨ op = 3 := by
  revert op; decide

/-- What the port's decoder can answer: the row the op selects, and the request it came from. -/
theorem decodeRequest_cases (r : Request) :
    (r.op = 0 ∧ decodeRequest r = .encode r.data) ∨ (r.op = 1 ∧ decodeRequest r = .writeFrame r.data) ∨
    (r.op = 2 ∧ decodeRequest r = .sendCommand r.data) ∨ (r.op = 3 ∧ decodeRequest r = .reserved r.data) := by
  obtain ⟨op, data⟩ := r
  rcases op_cases op with h | h | h | h <;> subst h <;> simp

/-- The request of a decoded request is that request. -/
theorem toRequest_decodeRequest (r : Request) : (decodeRequest r).toRequest = some r := by
  obtain ⟨op, data⟩ := r
  rcases op_cases op with h | h | h | h <;> subst h <;> rfl

/-- The carrier an op names has that op. -/
theorem carrierOfOp_eq_some {op : BitVec 2} {c : Carrier} : carrierOfOp op = some c ↔ op = c.code := by
  cases c <;> revert op <;> decide

/-- What the command-level decoder can answer: the one catalog command, with no arguments, under its carrier. -/
theorem decodeCommand_eq_ok {op : BitVec 2} {pd : List Byte} {i : Instr} :
    decodeCommand op pd = .ok i ↔ ∃ c, op = Carrier.code c ∧ pd = [getFirmwareVersionCode] ∧ i = .getFirmwareVersion c := by
  unfold decodeCommand
  constructor
  · intro h
    split at h
    · cases h
    · cases h
    · rename_i c code extra hc
      split at h
      · split at h
        · rename_i h1 h2
          cases h
          exact ⟨c, carrierOfOp_eq_some.mp hc, by rw [h1, h2], rfl⟩
        · cases h
      · cases h
  · rintro ⟨c, rfl, rfl, rfl⟩
    rw [carrierOfOp_eq_some.mpr rfl]
    simp

end Sys2Proof
end

