-- ==== Sys2Proof/Laws/Flags.lean ====
section
/-! SUPPORT. The packed status byte. -/

namespace Sys2Proof.Machine

@[simp] theorem statusByte_eq {E : Type} (r : Response E) : statusByte r = packStatus r.status r.stage r.releaseFailed := rfl

/-- The packing reads back, whatever the three fields. -/
theorem readStatusByte_pack (st : Status) (sg : Stage) (rf : Bool) :
    readStatusByte (packStatus st sg rf) = some (st, sg, rf) := by
  cases st <;> cases sg <;> cases rf <;> decide

/-- What the status byte of a well-formed response needs of its fields. -/
theorem packStatus_wellFormed {st : Status} {sg : Stage} {rf : Bool} (h1 : sg = .none ↔ st ≠ .transportError)
    (h2 : rf = true → sg = .select ∨ sg = .write) : statusByteWellFormed (packStatus st sg rf) = true := by
  cases st <;> cases sg <;> cases rf <;> simp at h1 h2 <;> decide

end Sys2Proof.Machine
end

