-- ==== Sys2Proof/Laws/Operands.lean ====
section
/-! SUPPORT. The arithmetic of the frame encoder. -/

namespace Sys2Proof.Machine

/-- lo8 as a number. -/
theorem lo8_toNat (v : Int) : ((lo8 v).toNat : Int) = v % 256 := by
  have h0 : 0 ≤ v % 256 := Int.emod_nonneg _ (by decide)
  have h1 : v % 256 < 256 := Int.emod_lt_of_pos _ (by decide)
  simp only [lo8, BitVec.toNat_ofNat]
  omega

/-- lo8 subtracts modulo 256. -/
theorem lo8_sub (v : Int) (b : Byte) : lo8 (v - b.toNat) = lo8 v - b := by
  apply BitVec.eq_of_toNat_eq
  have h1 := lo8_toNat v
  have h2 := lo8_toNat (v - b.toNat)
  have hb := b.isLt
  have hl := (lo8 v).isLt
  rw [BitVec.toNat_sub]
  omega

@[simp] theorem byteSum_nil : byteSum [] = 0 := rfl
@[simp] theorem byteSum_cons (b : Byte) (bs : List Byte) : byteSum (b :: bs) = b.toNat + byteSum bs := rfl

theorem byteSum_append (xs ys : List Byte) : byteSum (xs ++ ys) = byteSum xs + byteSum ys := by
  induction xs with
  | nil => simp
  | cons x xs ih => simp [ih, Nat.add_assoc]

/-- The accumulating subtraction subtracts the sum. -/
theorem dcsLoop_eq (acc : Int) (pd : List Byte) : dcsLoop acc pd = acc - byteSum pd := by
  induction pd generalizing acc with
  | nil => simp [dcsLoop]
  | cons b bs ih => simp [dcsLoop, ih]; omega

/-- The frame has six header bytes, PD and two trailer bytes. -/
@[simp] theorem frameOf_length (pd : List Byte) : (frameOf pd).length = pd.length + 8 := by
  simp [frameOf]

/-- When the encoder gives a frame. -/
theorem enc_eq_frame {pd f : List Byte} : enc pd = .frame f ↔ pd.length ≤ maxPd ∧ f = frameOf pd := by
  unfold enc
  split
  · simp; omega
  · simp only [EncResult.frame.injEq]
    constructor
    · intro h; exact ⟨by omega, h.symm⟩
    · intro h; exact h.2.symm

/-- When the encoder rejects. -/
theorem enc_eq_lengthOverflow {pd : List Byte} {n : Nat} :
    enc pd = .lengthOverflow n ↔ maxPd < pd.length ∧ n = pd.length := by
  unfold enc
  split
  · simp only [EncResult.lengthOverflow.injEq]
    constructor
    · intro h; exact ⟨by omega, h.symm⟩
    · intro h; exact h.2.symm
  · simp; omega

/-- A PD that fits. -/
theorem enc_fits {pd : List Byte} (h : pd.length ≤ maxPd) : enc pd = .frame (frameOf pd) :=
  enc_eq_frame.mpr ⟨h, rfl⟩

/-- A PD that does not. -/
theorem enc_too_long {pd : List Byte} (h : maxPd < pd.length) : enc pd = .lengthOverflow pd.length :=
  enc_eq_lengthOverflow.mpr ⟨h, rfl⟩

@[simp] theorem burstOf_length (f : List Byte) : (burstOf f).length = f.length + 1 := rfl
@[simp] theorem burstOf_head (f : List Byte) : (burstOf f).head? = some spiDataWriteMarker := rfl

end Sys2Proof.Machine
end

