-- ==== Sys2Proof/Laws/State.lean ====
section
/-! SUPPORT. One lemma per field per update of the state, so that no later proof unfolds a record update. -/

namespace Sys2Proof.Machine

variable {E : Type}

/-! ### respond(r) (Ops.lean) -/

@[simp] theorem State.respond_phase (r : Response E) (s : State E) : (s.respond r).phase = .idle := rfl
@[simp] theorem State.respond_req (r : Response E) (s : State E) : (s.respond r).req = s.req := rfl
@[simp] theorem State.respond_curOp (r : Response E) (s : State E) : (s.respond r).curOp = none := rfl
@[simp] theorem State.respond_curPd (r : Response E) (s : State E) : (s.respond r).curPd = [] := rfl
@[simp] theorem State.respond_curFrame (r : Response E) (s : State E) : (s.respond r).curFrame = none := rfl
@[simp] theorem State.respond_wbuf (r : Response E) (s : State E) : (s.respond r).wbuf = [] := rfl
@[simp] theorem State.respond_ans (r : Response E) (s : State E) : (s.respond r).ans = s.ans := rfl
@[simp] theorem State.respond_selFail (r : Response E) (s : State E) : (s.respond r).selFail = none := rfl
@[simp] theorem State.respond_wrFail (r : Response E) (s : State E) : (s.respond r).wrFail = none := rfl
@[simp] theorem State.respond_bus (r : Response E) (s : State E) : (s.respond r).bus = s.bus := rfl
@[simp] theorem State.respond_resp (r : Response E) (s : State E) : (s.respond r).resp = some r := rfl
@[simp] theorem State.respond_fault (r : Response E) (s : State E) : (s.respond r).fault = s.fault := rfl
@[simp] theorem State.respond_trace (r : Response E) (s : State E) : (s.respond r).trace = s.trace := rfl
@[simp] theorem State.respond_turn (r : Response E) (s : State E) : (s.respond r).turn = s.turn := rfl
@[simp] theorem State.respond_draws (r : Response E) (s : State E) : (s.respond r).draws = s.draws := rfl

/-! ### the sticky fault -/

@[simp] theorem State.raise_phase (f : FaultCode) (s : State E) : (s.raise f).phase = s.phase := rfl
@[simp] theorem State.raise_req (f : FaultCode) (s : State E) : (s.raise f).req = s.req := rfl
@[simp] theorem State.raise_curOp (f : FaultCode) (s : State E) : (s.raise f).curOp = s.curOp := rfl
@[simp] theorem State.raise_curPd (f : FaultCode) (s : State E) : (s.raise f).curPd = s.curPd := rfl
@[simp] theorem State.raise_curFrame (f : FaultCode) (s : State E) : (s.raise f).curFrame = s.curFrame := rfl
@[simp] theorem State.raise_wbuf (f : FaultCode) (s : State E) : (s.raise f).wbuf = s.wbuf := rfl
@[simp] theorem State.raise_ans (f : FaultCode) (s : State E) : (s.raise f).ans = s.ans := rfl
@[simp] theorem State.raise_selFail (f : FaultCode) (s : State E) : (s.raise f).selFail = s.selFail := rfl
@[simp] theorem State.raise_wrFail (f : FaultCode) (s : State E) : (s.raise f).wrFail = s.wrFail := rfl
@[simp] theorem State.raise_bus (f : FaultCode) (s : State E) : (s.raise f).bus = s.bus := rfl
@[simp] theorem State.raise_resp (f : FaultCode) (s : State E) : (s.raise f).resp = s.resp := rfl
@[simp] theorem State.raise_fault (f : FaultCode) (s : State E) : (s.raise f).fault = f := rfl
@[simp] theorem State.raise_trace (f : FaultCode) (s : State E) : (s.raise f).trace = s.trace := rfl
@[simp] theorem State.raise_turn (f : FaultCode) (s : State E) : (s.raise f).turn = s.turn := rfl
@[simp] theorem State.raise_draws (f : FaultCode) (s : State E) : (s.raise f).draws = s.draws := rfl

/-! ### issuing a call -/

@[simp] theorem State.issue_phase (c : Call) (s : State E) : (s.issue c).phase = waitPhase c := rfl
@[simp] theorem State.issue_req (c : Call) (s : State E) : (s.issue c).req = s.req := rfl
@[simp] theorem State.issue_curOp (c : Call) (s : State E) : (s.issue c).curOp = s.curOp := rfl
@[simp] theorem State.issue_curPd (c : Call) (s : State E) : (s.issue c).curPd = s.curPd := rfl
@[simp] theorem State.issue_curFrame (c : Call) (s : State E) : (s.issue c).curFrame = s.curFrame := rfl
@[simp] theorem State.issue_wbuf (c : Call) (s : State E) : (s.issue c).wbuf = s.wbuf := rfl
@[simp] theorem State.issue_ans (c : Call) (s : State E) : (s.issue c).ans = s.ans := rfl
@[simp] theorem State.issue_selFail (c : Call) (s : State E) : (s.issue c).selFail = s.selFail := rfl
@[simp] theorem State.issue_wrFail (c : Call) (s : State E) : (s.issue c).wrFail = s.wrFail := rfl
@[simp] theorem State.issue_bus (c : Call) (s : State E) : (s.issue c).bus = s.bus := rfl
@[simp] theorem State.issue_resp (c : Call) (s : State E) : (s.issue c).resp = s.resp := rfl
@[simp] theorem State.issue_fault (c : Call) (s : State E) : (s.issue c).fault = s.fault := rfl
@[simp] theorem State.issue_trace (c : Call) (s : State E) : (s.issue c).trace = s.trace ++ [.issue c] := rfl
@[simp] theorem State.issue_turn (c : Call) (s : State E) : (s.issue c).turn = s.turn := rfl
@[simp] theorem State.issue_draws (c : Call) (s : State E) : (s.issue c).draws = s.draws := rfl

/-! ### operand capture -/

@[simp] theorem State.capture_phase (op : ReqOp) (data : List Byte) (s : State E) : (s.capture op data).phase = s.phase := rfl
@[simp] theorem State.capture_req (op : ReqOp) (data : List Byte) (s : State E) : (s.capture op data).req = s.req := rfl
@[simp] theorem State.capture_curOp (op : ReqOp) (data : List Byte) (s : State E) : (s.capture op data).curOp = some op := rfl
@[simp] theorem State.capture_curPd (op : ReqOp) (data : List Byte) (s : State E) : (s.capture op data).curPd = data := rfl
@[simp] theorem State.capture_curFrame (op : ReqOp) (data : List Byte) (s : State E) : (s.capture op data).curFrame = none := rfl
@[simp] theorem State.capture_wbuf (op : ReqOp) (data : List Byte) (s : State E) : (s.capture op data).wbuf = s.wbuf := rfl
@[simp] theorem State.capture_ans (op : ReqOp) (data : List Byte) (s : State E) : (s.capture op data).ans = s.ans := rfl
@[simp] theorem State.capture_selFail (op : ReqOp) (data : List Byte) (s : State E) : (s.capture op data).selFail = s.selFail := rfl
@[simp] theorem State.capture_wrFail (op : ReqOp) (data : List Byte) (s : State E) : (s.capture op data).wrFail = s.wrFail := rfl
@[simp] theorem State.capture_bus (op : ReqOp) (data : List Byte) (s : State E) : (s.capture op data).bus = s.bus := rfl
@[simp] theorem State.capture_resp (op : ReqOp) (data : List Byte) (s : State E) : (s.capture op data).resp = s.resp := rfl
@[simp] theorem State.capture_fault (op : ReqOp) (data : List Byte) (s : State E) : (s.capture op data).fault = s.fault := rfl
@[simp] theorem State.capture_trace (op : ReqOp) (data : List Byte) (s : State E) : (s.capture op data).trace = s.trace := rfl
@[simp] theorem State.capture_turn (op : ReqOp) (data : List Byte) (s : State E) : (s.capture op data).turn = s.turn := rfl
@[simp] theorem State.capture_draws (op : ReqOp) (data : List Byte) (s : State E) : (s.capture op data).draws = s.draws := rfl

/-! ### BEGIN(frame) -/

@[simp] theorem State.beginBurst_phase (frame : List Byte) (s : State E) : (s.beginBurst frame).phase = .selWait := rfl
@[simp] theorem State.beginBurst_req (frame : List Byte) (s : State E) : (s.beginBurst frame).req = s.req := rfl
@[simp] theorem State.beginBurst_curOp (frame : List Byte) (s : State E) : (s.beginBurst frame).curOp = s.curOp := rfl
@[simp] theorem State.beginBurst_curPd (frame : List Byte) (s : State E) : (s.beginBurst frame).curPd = s.curPd := rfl
@[simp] theorem State.beginBurst_curFrame (frame : List Byte) (s : State E) : (s.beginBurst frame).curFrame = s.curFrame := rfl
@[simp] theorem State.beginBurst_wbuf (frame : List Byte) (s : State E) : (s.beginBurst frame).wbuf = burstOf frame := rfl
@[simp] theorem State.beginBurst_ans (frame : List Byte) (s : State E) : (s.beginBurst frame).ans = s.ans := rfl
@[simp] theorem State.beginBurst_selFail (frame : List Byte) (s : State E) : (s.beginBurst frame).selFail = s.selFail := rfl
@[simp] theorem State.beginBurst_wrFail (frame : List Byte) (s : State E) : (s.beginBurst frame).wrFail = s.wrFail := rfl
@[simp] theorem State.beginBurst_bus (frame : List Byte) (s : State E) : (s.beginBurst frame).bus = s.bus := rfl
@[simp] theorem State.beginBurst_resp (frame : List Byte) (s : State E) : (s.beginBurst frame).resp = s.resp := rfl
@[simp] theorem State.beginBurst_fault (frame : List Byte) (s : State E) : (s.beginBurst frame).fault = s.fault := rfl
@[simp] theorem State.beginBurst_trace (frame : List Byte) (s : State E) : (s.beginBurst frame).trace = s.trace ++ [.issue .select] := rfl
@[simp] theorem State.beginBurst_turn (frame : List Byte) (s : State E) : (s.beginBurst frame).turn = s.turn := rfl
@[simp] theorem State.beginBurst_draws (frame : List Byte) (s : State E) : (s.beginBurst frame).draws = s.draws := rfl

/-! ### FINISH(d) -/

@[simp] theorem State.finish_phase (d : Option (Answer E)) (s : State E) : (s.finish d).phase = .idle := rfl
@[simp] theorem State.finish_req (d : Option (Answer E)) (s : State E) : (s.finish d).req = s.req := rfl
@[simp] theorem State.finish_curOp (d : Option (Answer E)) (s : State E) : (s.finish d).curOp = none := rfl
@[simp] theorem State.finish_curPd (d : Option (Answer E)) (s : State E) : (s.finish d).curPd = [] := rfl
@[simp] theorem State.finish_curFrame (d : Option (Answer E)) (s : State E) : (s.finish d).curFrame = none := rfl
@[simp] theorem State.finish_wbuf (d : Option (Answer E)) (s : State E) : (s.finish d).wbuf = [] := rfl
@[simp] theorem State.finish_ans (d : Option (Answer E)) (s : State E) : (s.finish d).ans = s.ans := rfl
@[simp] theorem State.finish_selFail (d : Option (Answer E)) (s : State E) : (s.finish d).selFail = none := rfl
@[simp] theorem State.finish_wrFail (d : Option (Answer E)) (s : State E) : (s.finish d).wrFail = none := rfl
@[simp] theorem State.finish_bus (d : Option (Answer E)) (s : State E) : (s.finish d).bus = s.bus := rfl
@[simp] theorem State.finish_resp (d : Option (Answer E)) (s : State E) : (s.finish d).resp = some (finishResponse d s) := rfl
@[simp] theorem State.finish_fault (d : Option (Answer E)) (s : State E) : (s.finish d).fault = s.fault := rfl
@[simp] theorem State.finish_trace (d : Option (Answer E)) (s : State E) : (s.finish d).trace = s.trace := rfl
@[simp] theorem State.finish_turn (d : Option (Answer E)) (s : State E) : (s.finish d).turn = s.turn := rfl
@[simp] theorem State.finish_draws (d : Option (Answer E)) (s : State E) : (s.finish d).draws = s.draws := rfl

/-! ### the model's bookkeeping -/

@[simp] theorem State.tick_phase (s : State E) : (s.tick).phase = s.phase := rfl
@[simp] theorem State.tick_req (s : State E) : (s.tick).req = s.req := rfl
@[simp] theorem State.tick_curOp (s : State E) : (s.tick).curOp = s.curOp := rfl
@[simp] theorem State.tick_curPd (s : State E) : (s.tick).curPd = s.curPd := rfl
@[simp] theorem State.tick_curFrame (s : State E) : (s.tick).curFrame = s.curFrame := rfl
@[simp] theorem State.tick_wbuf (s : State E) : (s.tick).wbuf = s.wbuf := rfl
@[simp] theorem State.tick_ans (s : State E) : (s.tick).ans = s.ans := rfl
@[simp] theorem State.tick_selFail (s : State E) : (s.tick).selFail = s.selFail := rfl
@[simp] theorem State.tick_wrFail (s : State E) : (s.tick).wrFail = s.wrFail := rfl
@[simp] theorem State.tick_bus (s : State E) : (s.tick).bus = s.bus := rfl
@[simp] theorem State.tick_resp (s : State E) : (s.tick).resp = s.resp := rfl
@[simp] theorem State.tick_fault (s : State E) : (s.tick).fault = s.fault := rfl
@[simp] theorem State.tick_trace (s : State E) : (s.tick).trace = s.trace := rfl
@[simp] theorem State.tick_turn (s : State E) : (s.tick).turn = Config.schedule s.draws := rfl
@[simp] theorem State.tick_draws (s : State E) : (s.tick).draws = s.draws + 1 := rfl

/-! ### the host's and the transport's moves -/

@[simp] theorem State.post_phase (r : Request) (s : State E) : (s.post r).phase = s.phase := by
  unfold State.post; split <;> rfl
@[simp] theorem State.post_curOp (r : Request) (s : State E) : (s.post r).curOp = s.curOp := by
  unfold State.post; split <;> rfl
@[simp] theorem State.post_curPd (r : Request) (s : State E) : (s.post r).curPd = s.curPd := by
  unfold State.post; split <;> rfl
@[simp] theorem State.post_curFrame (r : Request) (s : State E) : (s.post r).curFrame = s.curFrame := by
  unfold State.post; split <;> rfl
@[simp] theorem State.post_wbuf (r : Request) (s : State E) : (s.post r).wbuf = s.wbuf := by
  unfold State.post; split <;> rfl
@[simp] theorem State.post_ans (r : Request) (s : State E) : (s.post r).ans = s.ans := by
  unfold State.post; split <;> rfl
@[simp] theorem State.post_selFail (r : Request) (s : State E) : (s.post r).selFail = s.selFail := by
  unfold State.post; split <;> rfl
@[simp] theorem State.post_wrFail (r : Request) (s : State E) : (s.post r).wrFail = s.wrFail := by
  unfold State.post; split <;> rfl
@[simp] theorem State.post_bus (r : Request) (s : State E) : (s.post r).bus = s.bus := by
  unfold State.post; split <;> rfl
@[simp] theorem State.post_resp (r : Request) (s : State E) : (s.post r).resp = s.resp := by
  unfold State.post; split <;> rfl
@[simp] theorem State.post_fault (r : Request) (s : State E) : (s.post r).fault = s.fault := by
  unfold State.post; split <;> rfl
@[simp] theorem State.post_trace (r : Request) (s : State E) : (s.post r).trace = s.trace := by
  unfold State.post; split <;> rfl
@[simp] theorem State.post_turn (r : Request) (s : State E) : (s.post r).turn = s.turn := by
  unfold State.post; split <;> rfl
@[simp] theorem State.post_draws (r : Request) (s : State E) : (s.post r).draws = s.draws := by
  unfold State.post; split <;> rfl
@[simp] theorem State.answer_phase (a : Answer E) (s : State E) : (s.answer a).phase = s.phase := by
  unfold State.answer; split <;> rfl
@[simp] theorem State.answer_req (a : Answer E) (s : State E) : (s.answer a).req = s.req := by
  unfold State.answer; split <;> rfl
@[simp] theorem State.answer_curOp (a : Answer E) (s : State E) : (s.answer a).curOp = s.curOp := by
  unfold State.answer; split <;> rfl
@[simp] theorem State.answer_curPd (a : Answer E) (s : State E) : (s.answer a).curPd = s.curPd := by
  unfold State.answer; split <;> rfl
@[simp] theorem State.answer_curFrame (a : Answer E) (s : State E) : (s.answer a).curFrame = s.curFrame := by
  unfold State.answer; split <;> rfl
@[simp] theorem State.answer_wbuf (a : Answer E) (s : State E) : (s.answer a).wbuf = s.wbuf := by
  unfold State.answer; split <;> rfl
@[simp] theorem State.answer_selFail (a : Answer E) (s : State E) : (s.answer a).selFail = s.selFail := by
  unfold State.answer; split <;> rfl
@[simp] theorem State.answer_wrFail (a : Answer E) (s : State E) : (s.answer a).wrFail = s.wrFail := by
  unfold State.answer; split <;> rfl
@[simp] theorem State.answer_bus (a : Answer E) (s : State E) : (s.answer a).bus = s.bus := by
  unfold State.answer; split <;> rfl
@[simp] theorem State.answer_resp (a : Answer E) (s : State E) : (s.answer a).resp = s.resp := by
  unfold State.answer; split <;> rfl
@[simp] theorem State.answer_fault (a : Answer E) (s : State E) : (s.answer a).fault = s.fault := by
  unfold State.answer; split <;> rfl
@[simp] theorem State.answer_turn (a : Answer E) (s : State E) : (s.answer a).turn = s.turn := by
  unfold State.answer; split <;> rfl
@[simp] theorem State.answer_draws (a : Answer E) (s : State E) : (s.answer a).draws = s.draws := by
  unfold State.answer; split <;> rfl

/-! ### the block's step on an answer -/

@[simp] theorem State.act_req (release : Bool) (s : State E) : (s.act release).req = s.req := by
  unfold State.act selAnswered writeAnswered deselAnswered
  repeat' split
  all_goals rfl
@[simp] theorem State.act_fault (release : Bool) (s : State E) : (s.act release).fault = s.fault := by
  unfold State.act selAnswered writeAnswered deselAnswered
  repeat' split
  all_goals rfl
@[simp] theorem State.act_turn (release : Bool) (s : State E) : (s.act release).turn = s.turn := by
  unfold State.act selAnswered writeAnswered deselAnswered
  repeat' split
  all_goals rfl
@[simp] theorem State.act_draws (release : Bool) (s : State E) : (s.act release).draws = s.draws := by
  unfold State.act selAnswered writeAnswered deselAnswered
  repeat' split
  all_goals rfl

end Sys2Proof.Machine
end

