-- ==== Sys2Proof/Laws/Ops.lean ====
section
/-! SUPPORT. What the shared operations can do, said once each. -/

namespace Sys2Proof.Machine

variable {E : Type}

/-- A start step in IDLE. -/
theorem startStep_idle {body : State E → State E} {s : State E} (hf : s.fault = .none) (hp : s.phase = .idle) :
    startStep body s = .next (body s) := by
  simp [startStep, hf, hp]

/-- A start step during a transaction. -/
theorem startStep_busy {body : State E → State E} {s : State E} (hf : s.fault = .none) (hp : s.phase ≠ .idle) :
    startStep body s = .next (s.raise .reentrant) := by
  simp [startStep, hf, hp]

/-- A start step of a stopped block. -/
theorem startStep_stopped {body : State E → State E} {s : State E} (hf : s.fault ≠ .none) :
    startStep body s = .fault (.blockStopped s.fault) := by
  simp [startStep, hf]

/-- Everything a start step can do. -/
theorem startStep_eq_next {body : State E → State E} {s t : State E} :
    startStep body s = .next t ↔
      s.fault = .none ∧ ((s.phase = .idle ∧ t = body s) ∨ (s.phase ≠ .idle ∧ t = s.raise .reentrant)) := by
  by_cases hf : s.fault = .none
  · by_cases hp : s.phase = .idle
    · simp [startStep, hf, hp, eq_comm]
    · simp [startStep, hf, hp, eq_comm]
  · simp [startStep, hf]

/-- An accept step in IDLE. -/
theorem acceptStep_idle {body : State E → State E} {s : State E} (hf : s.fault = .none) (hp : s.phase = .idle) :
    acceptStep body s = .next (body { s with req := none }) :=
  startStep_idle hf hp

/-- An accept step during a transaction. -/
theorem acceptStep_busy {body : State E → State E} {s : State E} (hf : s.fault = .none) (hp : s.phase ≠ .idle) :
    acceptStep body s = .next (State.raise .reentrant { s with req := none }) :=
  startStep_busy hf hp

/-- An accept step of a stopped block. -/
theorem acceptStep_stopped {body : State E → State E} {s : State E} (hf : s.fault ≠ .none) :
    acceptStep body s = .fault (.blockStopped s.fault) :=
  startStep_stopped hf

/-- Everything an accept step can do. -/
theorem acceptStep_eq_next {body : State E → State E} {s t : State E} :
    acceptStep body s = .next t ↔
      s.fault = .none ∧
        ((s.phase = .idle ∧ t = body { s with req := none }) ∨
         (s.phase ≠ .idle ∧ t = State.raise .reentrant { s with req := none })) :=
  startStep_eq_next

/-- ENCODE of a PD that fits. -/
theorem encodeBody_fits {pd : List Byte} (h : pd.length ≤ maxPd) (s : State E) :
    encodeBody pd s = (s.capture .encode pd).respond (encodedResponse (frameOf pd)) := by
  simp [encodeBody, enc_fits h]

/-- ENCODE of a PD that does not. -/
theorem encodeBody_too_long {pd : List Byte} (h : maxPd < pd.length) (s : State E) :
    encodeBody pd s = (s.capture .encode pd).respond (overflowResponse pd.length) := by
  simp [encodeBody, enc_too_long h]

/-- SEND of a PD that fits. -/
theorem sendBody_fits {pd : List Byte} (h : pd.length ≤ maxPd) (s : State E) :
    sendBody pd s =
      State.beginBurst (frameOf pd) { s.capture .sendCommand pd with curFrame := some (frameOf pd) } := by
  simp [sendBody, enc_fits h]

/-- SEND of a PD that does not. -/
theorem sendBody_too_long {pd : List Byte} (h : maxPd < pd.length) (s : State E) :
    sendBody pd s = (s.capture .sendCommand pd).respond (overflowResponse pd.length) := by
  simp [sendBody, enc_too_long h]

/-- The host's write to an empty latch. -/
theorem post_empty {s : State E} (h : s.req = none) (r : Request) : s.post r = { s with req := some r } := by
  simp [State.post, h]

/-- The host's write to a full latch. -/
theorem post_full {s : State E} (h : s.req ≠ none) (r : Request) : s.post r = s := by
  unfold State.post; split
  · contradiction
  · rfl

/-- When a call is outstanding. -/
theorem outstanding_iff (s : State E) : s.outstanding = true ↔ s.phase ≠ .idle ∧ s.ans = none := by
  simp [State.outstanding]

/-- The answer to an outstanding call. -/
theorem answer_outstanding {s : State E} (h : s.outstanding = true) (a : Answer E) :
    s.answer a = { s with ans := some a, trace := s.trace ++ [.answer a] } := by
  simp [State.answer, h]

/-- An answer without an outstanding call. -/
theorem answer_none {s : State E} (h : s.outstanding = false) (a : Answer E) : s.answer a = s := by
  simp [State.answer, h]

/-- What a block step can accept. -/
theorem fetch_eq_some {s : State E} {i : Instr} :
    s.fetch = some i ↔ s.fault = .none ∧ ∃ r, s.req = some r ∧ i = decodeRequest r := by
  unfold State.fetch
  split
  · cases hr : s.req <;> simp_all [eq_comm]
  · simp_all

/-- tickAfter has a next state exactly when the meaning has. -/
theorem tickAfter_eq_next {o : Host.Outcome (State E) Fault Refusal} {t : State E} :
    tickAfter o = .next t ↔ ∃ s', o = .next s' ∧ t = s'.tick := by
  cases o <;> simp [tickAfter, eq_comm]

end Sys2Proof.Machine
end

