-- ==== Sys2Proof/Laws/PerInstr.lean ====
section
/-! SUPPORT. Statements about every instruction as syntax, one lemma per constructor. -/

namespace Sys2Proof.Laws

/-- The byte of an instruction's encoding that its row of spec/opcode_table.json gives bits: the op byte of F-REQ, the
command code byte PD[0], the function-select byte. -/
def tableByte (i : Instr) : Option Byte :=
  match encode i with
  | (.request, b :: _) => some b
  | (.command, _ :: code :: _) => some code
  | (.burst, m :: _) => some m
  | _ => none

/-- The "mask" and "match" of an instruction's row in spec/opcode_table.json. -/
def tableRow : Instr → Byte × Byte
  | .encode _ => (0x3, 0x0)
  | .writeFrame _ => (0x3, 0x1)
  | .sendCommand _ => (0x3, 0x2)
  | .reserved _ => (0x3, 0x3)
  | .getFirmwareVersion _ => (0xFF, 0x02)
  | .spiDataWrite _ => (0xFF, 0x01)

namespace EncodesRow

/-- The encoder writes the bits the opcode table fixes. -/
def Statement (i : Instr) : Prop :=
  i.wellFormed = true → ∃ b, tableByte i = some b ∧ b &&& (tableRow i).1 = (tableRow i).2

theorem encode (pd : List Byte) : Statement (.encode pd) := fun _ => ⟨0x00, rfl, by simp [tableRow]⟩
theorem writeFrame (frame : List Byte) : Statement (.writeFrame frame) := fun _ => ⟨0x01, rfl, by simp [tableRow]⟩
theorem sendCommand (pd : List Byte) : Statement (.sendCommand pd) := fun _ => ⟨0x02, rfl, by simp [tableRow]⟩
theorem reserved (data : List Byte) : Statement (.reserved data) := fun _ => ⟨0x03, rfl, by simp [tableRow]⟩
theorem getFirmwareVersion (carrier : Carrier) : Statement (.getFirmwareVersion carrier) :=
  fun _ => ⟨0x02, rfl, by simp [tableRow]⟩
theorem spiDataWrite (frame : List Byte) : Statement (.spiDataWrite frame) := fun _ => ⟨0x01, rfl, by simp [tableRow]⟩

end EncodesRow

end Sys2Proof.Laws
end

