-- ==== Sys2Proof/Laws/Sequencer.lean ====
section
/-! SUPPORT. What the sequencer can do, said once per phase. -/

namespace Sys2Proof.Machine

variable {E : Type}

/-- When the block has a step on an answer. -/
def State.canAct (s : State E) : Bool := decide (s.fault = .none) && decide (s.phase ≠ .idle) && s.ans.isSome

/-- Without a fault-free wait phase and an answer, nothing changes. -/
theorem act_disabled {s : State E} (h : s.canAct = false) (release : Bool) : s.act release = s := by
  unfold State.act
  split <;> simp_all [State.canAct]

/-- SEL_WAIT. -/
theorem act_selWait {s : State E} {a : Answer E} (hf : s.fault = .none) (hp : s.phase = .selWait) (ha : s.ans = some a)
    (release : Bool) : s.act release = selAnswered release a s := by
  simp [State.act, hf, hp, ha]

/-- WR_WAIT. -/
theorem act_wrWait {s : State E} {a : Answer E} (hf : s.fault = .none) (hp : s.phase = .wrWait) (ha : s.ans = some a)
    (release : Bool) : s.act release = writeAnswered a s := by
  simp [State.act, hf, hp, ha]

/-- DESEL_WAIT. -/
theorem act_deselWait {s : State E} {a : Answer E} (hf : s.fault = .none) (hp : s.phase = .deselWait) (ha : s.ans = some a)
    (release : Bool) : s.act release = deselAnswered a s := by
  simp [State.act, hf, hp, ha]

/-- Everything the block's step on an answer can do. -/
theorem act_cases (release : Bool) (s : State E) :
    (s.canAct = false ∧ s.act release = s) ∨
    (s.fault = .none ∧ ∃ a, s.ans = some a ∧
      ((s.phase = .selWait ∧ s.act release = selAnswered release a s) ∨
       (s.phase = .wrWait ∧ s.act release = writeAnswered a s) ∨
       (s.phase = .deselWait ∧ s.act release = deselAnswered a s))) := by
  by_cases h : s.canAct = false
  · exact .inl ⟨h, act_disabled h release⟩
  · simp only [State.canAct, Bool.and_eq_true, decide_eq_true_eq, Bool.not_eq_false, Option.isSome_iff_exists] at h
    obtain ⟨⟨hf, hp⟩, a, ha⟩ := h
    refine .inr ⟨hf, a, ha, ?_⟩
    cases hph : s.phase with
    | idle => exact absurd hph hp
    | selWait => exact .inl ⟨rfl, act_selWait hf hph ha release⟩
    | wrWait => exact .inr (.inl ⟨rfl, act_wrWait hf hph ha release⟩)
    | deselWait => exact .inr (.inr ⟨rfl, act_deselWait hf hph ha release⟩)

/-- The response FINISH builds is well-formed, whatever the failures. -/
theorem finishResponse_cases (d : Option (Answer E)) (s : State E) :
    (finishResponse d s).stage = (firstFailure s.selFail s.wrFail (d.bind answerPayload)).1 ∧
    (finishResponse d s).err = (firstFailure s.selFail s.wrFail (d.bind answerPayload)).2 ∧
    (finishResponse d s).frame = s.curFrame ∧ (finishResponse d s).length = none := ⟨rfl, rfl, rfl, rfl⟩

end Sys2Proof.Machine
end

