-- ==== Sys2Proof/Laws/Step.lean ====
section
/-! SUPPORT. What a move and a step can do, said once. -/

namespace Sys2Proof.Machine

/-- Every meaning is a start step; its body per instruction. -/
theorem exec_encode (pd : List Byte) (s : State) : exec (.encode pd) s = acceptStep (encodeBody pd) s := rfl
theorem exec_writeFrame (f : List Byte) (s : State) : exec (.writeFrame f) s = acceptStep (writeFrameBody f) s := rfl
theorem exec_sendCommand (pd : List Byte) (s : State) : exec (.sendCommand pd) s = acceptStep (sendBody pd) s := rfl
theorem exec_reserved (d : List Byte) (s : State) : exec (.reserved d) s = acceptStep (State.raise .reservedOp) s := rfl
theorem exec_spiDataWrite (f : List Byte) (s : State) : exec (.spiDataWrite f) s = startStep (State.beginBurst f) s := rfl

/-- The body of a request's meaning, once it is accepted in IDLE. -/
def requestBody (r : Request) : State → State :=
  match decodeRequest r with
  | .encode pd => encodeBody pd
  | .writeFrame f => writeFrameBody f
  | .sendCommand pd => sendBody pd
  | _ => State.raise .reservedOp

/-- exec of a decoded request is an accept step. -/
theorem exec_decodeRequest (r : Request) (s : State) : exec (decodeRequest r) s = acceptStep (requestBody r) s := by
  unfold requestBody
  rcases decodeRequest_cases r with ⟨-, h⟩ | ⟨-, h⟩ | ⟨-, h⟩ | ⟨-, h⟩ <;> rw [h] <;> rfl

/-- Everything a move can do: a request accepted in IDLE, one accepted during a transaction, the block's step on an
answer, the transport's answer, the host's write, or nothing. -/
theorem perform_cases (release : Bool) (a : Action TErr) (s : State) :
    (∃ r, a = .accept ∧ s.fault = .none ∧ s.req = some r ∧ s.phase = .idle ∧
      perform release a s = .next (requestBody r { s with req := none })) ∨
    (∃ r, a = .accept ∧ s.fault = .none ∧ s.req = some r ∧ s.phase ≠ .idle ∧
      perform release a s = .next (State.raise .reentrant { s with req := none })) ∨
    (a = .accept ∧ s.fetch = none ∧ perform release a s = .next s) ∨
    (a = .act ∧ perform release a s = .next (s.act release)) ∨
    (∃ x, a = .answer x ∧ perform release a s = .next (s.answer x)) ∨
    (∃ r, a = .post r ∧ perform release a s = .next (s.post r)) := by
  cases a with
  | act => exact .inr (.inr (.inr (.inl ⟨rfl, rfl⟩)))
  | answer x => exact .inr (.inr (.inr (.inr (.inl ⟨x, rfl, rfl⟩))))
  | post r => exact .inr (.inr (.inr (.inr (.inr ⟨r, rfl, rfl⟩))))
  | accept =>
    cases h : s.fetch with
    | none => exact .inr (.inr (.inl ⟨rfl, rfl, by simp [perform, h]⟩))
    | some i =>
      obtain ⟨hf, r, hr, rfl⟩ := fetch_eq_some.mp h
      have hp : perform release .accept s = acceptStep (requestBody r) s := by
        simp only [perform, h, exec_decodeRequest]
      by_cases hi : s.phase = .idle
      · refine .inl ⟨r, rfl, hf, hr, hi, ?_⟩
        rw [hp]; exact startStep_idle hf hi
      · refine .inr (.inl ⟨r, rfl, hf, hr, hi, ?_⟩)
        rw [hp]; exact startStep_busy hf hi

/-- A step is the move whose turn it is, then the bookkeeping. -/
theorem step_eq (s : State) : step s = tickAfter (perform Config.releaseOnSelectFail s.action s) := rfl

/-- A step with a next state is a move with a next state. -/
theorem step_eq_next {s t : State} :
    step s = .next t ↔ ∃ s', perform Config.releaseOnSelectFail s.action s = .next s' ∧ t = s'.tick :=
  tickAfter_eq_next

/-- A move always has a next state. -/
theorem perform_has_next (release : Bool) (a : Action TErr) (s : State) : ∃ t, perform release a s = .next t := by
  rcases perform_cases release a s with
    ⟨_, _, _, _, _, h⟩ | ⟨_, _, _, _, _, h⟩ | ⟨_, _, h⟩ | ⟨_, h⟩ | ⟨_, _, h⟩ | ⟨_, _, h⟩ <;> exact ⟨_, h⟩

/-- The action of each turn. -/
theorem action_eq_accept {s : State} : s.action = .accept ↔ s.turn = .accept := by
  unfold State.action; cases s.turn <;> simp
theorem action_eq_act {s : State} : s.action = .act ↔ s.turn = .act := by
  unfold State.action; cases s.turn <;> simp
theorem action_eq_answer {s : State} {a : Answer TErr} (h : s.action = .answer a) :
    s.turn = .answer ∧ a = Config.transportAnswer s.draws := by
  unfold State.action at h; cases ht : s.turn <;> simp_all
theorem action_eq_post {s : State} {r : Request} (h : s.action = .post r) :
    s.turn = .post ∧ r = Config.hostRequest s.draws := by
  unfold State.action at h; cases ht : s.turn <;> simp_all

/-- Everything a step can do: the bookkeeping after a request accepted in IDLE, one accepted during a transaction, an
accept with nothing to accept, the block's step on an answer, the transport's answer, or the host's write. -/
theorem step_cases {s t : State} (h : step s = .next t) :
    ∃ s', t = s'.tick ∧
      ((∃ r, s.turn = .accept ∧ s.fault = .none ∧ s.req = some r ∧ s.phase = .idle ∧
          s' = requestBody r { s with req := none }) ∨
       (∃ r, s.turn = .accept ∧ s.fault = .none ∧ s.req = some r ∧ s.phase ≠ .idle ∧
          s' = State.raise .reentrant { s with req := none }) ∨
       (s.turn = .accept ∧ s.fetch = none ∧ s' = s) ∨
       (s.turn = .act ∧ s' = s.act Config.releaseOnSelectFail) ∨
       (s.turn = .answer ∧ s' = s.answer (Config.transportAnswer s.draws)) ∨
       (s.turn = .post ∧ s' = s.post (Config.hostRequest s.draws))) := by
  obtain ⟨s', hp, rfl⟩ := step_eq_next.mp h
  refine ⟨s', rfl, ?_⟩
  rcases perform_cases Config.releaseOnSelectFail s.action s with
    ⟨r, ha, hf, hr, hi, e⟩ | ⟨r, ha, hf, hr, hi, e⟩ | ⟨ha, hn, e⟩ | ⟨ha, e⟩ | ⟨x, ha, e⟩ | ⟨r, ha, e⟩ <;>
    (rw [e] at hp; cases hp)
  · exact .inl ⟨r, action_eq_accept.mp ha, hf, hr, hi, rfl⟩
  · exact .inr (.inl ⟨r, action_eq_accept.mp ha, hf, hr, hi, rfl⟩)
  · exact .inr (.inr (.inl ⟨action_eq_accept.mp ha, hn, rfl⟩))
  · exact .inr (.inr (.inr (.inl ⟨action_eq_act.mp ha, rfl⟩)))
  · obtain ⟨ht, rfl⟩ := action_eq_answer ha
    exact .inr (.inr (.inr (.inr (.inl ⟨ht, rfl⟩))))
  · obtain ⟨ht, rfl⟩ := action_eq_post ha
    exact .inr (.inr (.inr (.inr (.inr ⟨ht, rfl⟩))))

/-- Everything an accepted request's body can do: drive an encoder's response, set RESERVED_OP, or begin a burst of the
captured operand's frame. -/
theorem requestBody_cases (r : Request) (s : State) :
    (∃ f, r.op = 0 ∧ enc r.data = .frame f ∧ requestBody r s = s.respond (encodedResponse f)) ∨
    (∃ n, (r.op = 0 ∨ r.op = 2) ∧ enc r.data = .lengthOverflow n ∧
      requestBody r s = s.respond (overflowResponse n)) ∨
    (r.op = 3 ∧ requestBody r s = s.raise .reservedOp) ∨
    (r.op = 1 ∧ requestBody r s = (s.capture .writeFrame r.data).beginBurst r.data) ∨
    (∃ f, r.op = 2 ∧ enc r.data = .frame f ∧
      requestBody r s = State.beginBurst f { s.capture .sendCommand r.data with curFrame := some f }) := by
  unfold requestBody
  rcases decodeRequest_cases r with ⟨ho, e⟩ | ⟨ho, e⟩ | ⟨ho, e⟩ | ⟨ho, e⟩ <;> rw [e] <;> simp only
  · cases hE : enc r.data with
    | frame f => exact .inl ⟨f, ho, rfl, by simp only [encodeBody, hE]; rfl⟩
    | lengthOverflow n => exact .inr (.inl ⟨n, .inl ho, rfl, by simp only [encodeBody, hE]; rfl⟩)
  · exact .inr (.inr (.inr (.inl ⟨ho, rfl⟩)))
  · cases hE : enc r.data with
    | frame f => exact .inr (.inr (.inr (.inr ⟨f, ho, rfl, by simp only [sendBody, hE]⟩)))
    | lengthOverflow n => exact .inr (.inl ⟨n, .inr ho, rfl, by simp only [sendBody, hE]; rfl⟩)
  · exact .inr (.inr (.inl ⟨ho, trivial⟩))

end Sys2Proof.Machine
end

