-- ==== Sys2Proof/Tests/Slice0.lean ====
section
/-! SUPPORT. The model's own tests: well-formedness, decoding of words written out from the spec, the spec's vectors on
single steps, and a witness for the hypotheses of each obligation. -/

open Sys2Proof Sys2Proof.Machine Sys2Proof.Safety

namespace Sys2Proof.Tests

/-! ### Helpers -/

/-- The next state of an outcome, if it has one. -/
def nextOf : Host.Outcome State Fault Refusal → Option State
  | .next s => some s
  | _ => none

/-- A failure value for the tests: the one that the failure type has whatever the configuration (log entry 2). -/
def eA : TErr := ⟨0, .inl rfl⟩

/-- The frame of 95_test_vectors.md L1.1. -/
def frame02 : List Byte := [0x00, 0x00, 0xFF, 0x02, 0xFE, 0xD4, 0x02, 0x2A, 0x00]

/-- The reset state with a request in the latch and the block's turn to accept it. -/
def posted (r : Request) : State := { State.reset with req := some r, turn := .accept }

/-- After the select call of WRITE_FRAME []. -/
def selecting (a : Option (Answer TErr)) : State :=
  { State.reset with
    phase := .selWait, curOp := some .writeFrame, wbuf := [0x01], ans := a, turn := .act
    trace := .issue .select :: (match a with | none => [] | some r => [.answer r]) }

/-- The same session with its write outstanding. -/
def writing (a : Option (Answer TErr)) : State :=
  { selecting none with
    phase := .wrWait, bus := .acquired, ans := a
    trace := [.issue .select, .answer .ok, .issue (.write [0x01])] ++ (match a with | none => [] | some r => [.answer r]) }

/-- The same session with its deselect outstanding. -/
def deselecting (w : Option TErr) (a : Option (Answer TErr)) : State :=
  { writing none with phase := .deselWait, wrFail := w, ans := a }

/-- `[b] * n` (00_scope.md R13). -/
def copies (n : Nat) (b : Byte) : List Byte := List.replicate n b

theorem copies_length (n : Nat) (b : Byte) : (copies n b).length = n := List.length_replicate

/-- A stopped block. -/
def stopped : State := { State.reset with fault := .reservedOp, req := some ⟨2, [0x02]⟩, turn := .accept }

/-! ### Well-formedness: each check refuses a term -/

/-- An OK response, as FINISH builds it. -/
def okResponse : Response TErr := ⟨.ok, .none, false, none, none, none, none⟩

theorem test_wf_ok : okResponse.wellFormed = true := by decide
theorem test_wf_stage : Response.wellFormed { okResponse with stage := .write } = false := by decide
theorem test_wf_releaseFailed :
    Response.wellFormed ⟨.transportError, .deselect, true, some eA, some eA, none, none⟩ = false := by decide
theorem test_wf_err : Response.wellFormed { okResponse with err := some eA } = false := by decide
theorem test_wf_errRelease : Response.wellFormed { okResponse with errRelease := some eA } = false := by decide
theorem test_wf_length : Response.wellFormed { okResponse with length := some 255 } = false := by decide
theorem test_wf_frame :
    Response.wellFormed (E := TErr) ⟨.lengthOverflow, .none, false, none, none, some [], some 255⟩ = false := by decide
/-- Reserved bits, reserved status, stage without TRANSPORT_ERROR, release_failed with stage DESELECT (10_state.md R32). -/
theorem test_wf_statusByte :
    statusByteWellFormed 0x20 = false ∧ statusByteWellFormed 0x03 = false ∧ statusByteWellFormed 0x04 = false ∧
    statusByteWellFormed 0x1E = false ∧ statusByteWellFormed 0x1A = true := by decide
/-- No instruction term is ill-formed (30_encoding.md R71): the check accepts an over-long operand. -/
theorem test_wf_instr : Instr.wellFormed (.encode (copies 300 0x00)) = true := rfl

/-! ### Decoding, bit by bit from the spec -/

/-- 30_encoding.md R70, programs P1, P2 and P4 of 95_test_vectors.md: op in bits [1:0], then the data. -/
theorem test_decode_requests :
    decode .request [0b00000000, 0x14, 0x01] = .ok (.encode [0x14, 0x01]) ∧
    decode .request [0b00000001, 0x01, 0x02] = .ok (.writeFrame [0x01, 0x02]) ∧
    decode .request [0b00000010, 0x02] = .ok (.sendCommand [0x02]) ∧
    decode .request [0b00000011] = .ok (.reserved []) := ⟨rfl, rfl, rfl, rfl⟩
/-- 30_encoding.md R73: the command code 00000010 with no argument bytes. -/
theorem test_decode_command :
    decode .command [0b00000010, 0b00000010] = .ok (.getFirmwareVersion .sendCommand) ∧
    decode .command [0b00000000, 0b00000010] = .ok (.getFirmwareVersion .encode) ∧
    decode .command [0b00000010, 0b00000010, 0x00] = .error (.unexpectedArguments [0x00]) := ⟨rfl, rfl, rfl⟩
/-- 30_encoding.md R65 and R68: the marker 00000001, and no other function-select value. -/
theorem test_decode_burst :
    decode .burst (0b00000001 :: frame02) = .ok (.spiDataWrite frame02) ∧
    decode .burst [0b00000011] = .error (.otherFunctionSelect 0x03) := ⟨rfl, rfl⟩
/-- The opcode table's words, as the host numbers them (log entry 7). -/
theorem test_decodeTableWord :
    decodeTableWord 8 0 = some (.encode []) ∧ decodeTableWord 8 1 = some (.writeFrame []) ∧
    decodeTableWord 8 2 = some (.sendCommand []) ∧ decodeTableWord 8 3 = some (.reserved []) ∧
    decodeTableWord 16 0x0202 = some (.sendCommand [0x02]) := by decide
/-- 30_encoding.md R77. -/
theorem test_render :
    renderRequest ⟨2, [0x4A, 0x01, 0x00]⟩ = some "SEND_COMMAND [4A 01 00]".toList ∧
    renderRequest ⟨0, []⟩ = some "ENCODE []".toList ∧ renderRequest ⟨3, []⟩ = none := by decide

/-! ### The encoder: vectors of 95_test_vectors.md section 2.1 and 2.2 -/

theorem test_enc_E1_E3_E4 :
    enc [] = .frame [0x00, 0x00, 0xFF, 0x01, 0xFF, 0xD4, 0x2C, 0x00] ∧ enc [0x02] = .frame frame02 ∧
    enc [0x2C] = .frame [0x00, 0x00, 0xFF, 0x02, 0xFE, 0xD4, 0x2C, 0x00, 0x00] := by decide
theorem test_enc_E7_E10 :
    enc [0x02, 0xD4] = .frame [0x00, 0x00, 0xFF, 0x03, 0xFD, 0xD4, 0x02, 0xD4, 0x56, 0x00] ∧
    enc [0x14, 0x01, 0x14, 0x01] =
      .frame [0x00, 0x00, 0xFF, 0x05, 0xFB, 0xD4, 0x14, 0x01, 0x14, 0x01, 0x02, 0x00] := by decide
/-- E12: LEN = LCS = 80 and DCS = AB for 127 bytes FF, through the closed form of the sum. -/
theorem test_enc_E12 : lo8 (-128) = 0x80 ∧ lo8 (-(0xD4 + 127 * 255)) = 0xAB := by decide
/-- E15 and E16. -/
theorem test_enc_E15_E16 : lo8 (-255) = 0x01 ∧ lo8 (-(0xD4 + 254 * 255)) = 0x2A ∧ lo8 (-(0xD4 + 32131)) = 0xA9 := by decide
/-- E17: 255 bytes overflow. -/
theorem test_enc_E17 : enc (copies 255 0x00) = .lengthOverflow 255 := by
  rw [enc_too_long (by rw [copies_length]; decide), copies_length]
/-- A valid frame and the source's printed one, which breaks the checksum (90_conflicts.md C2). -/
theorem test_frameValid :
    frameValid frame02 = true ∧ frameValid [0x00, 0x00, 0xFF, 0x02, 0xFE, 0xD4, 0x02, 0x2C, 0x00] = false := by decide

/-! ### One step of each instruction and of the sequencer -/

/-- E3 as a request. -/
theorem test_encode :
    (nextOf (exec (.encode [0x02]) (posted ⟨0, [0x02]⟩))).map (fun t => (t.resp, t.trace, t.req)) =
      some (some ⟨.ok, .none, false, none, none, some frame02, none⟩, [], none) := by decide
/-- W9: no check, the marker is doubled. -/
theorem test_writeFrame :
    (nextOf (exec (.writeFrame [0x01, 0x02]) (posted ⟨1, [0x01, 0x02]⟩))).map (fun t => (t.wbuf, t.phase, t.trace)) =
      some ([0x01, 0x01, 0x02], .selWait, [.issue .select]) := by decide
/-- S2: the burst of an empty PD. -/
theorem test_sendCommand :
    (nextOf (exec (.sendCommand []) (posted ⟨2, []⟩))).map (fun t => (t.wbuf, t.curOp)) =
      some ([0x01, 0x00, 0x00, 0xFF, 0x01, 0xFF, 0xD4, 0x2C, 0x00], some .sendCommand) := by decide
/-- S3: an over-long command, no events. -/
theorem test_sendCommand_overflow :
    (nextOf (exec (.sendCommand (copies 255 0x00)) State.reset)).map (fun t => (t.resp, t.trace, t.bus)) =
      some (some ⟨.lengthOverflow, .none, false, none, none, none, some 255⟩, [], .released) := by
  rw [exec_sendCommand, acceptStep_idle rfl rfl, sendBody_too_long (by rw [copies_length]; decide), copies_length]; rfl
/-- F1: op 11 from reset. -/
theorem test_reserved :
    (nextOf (exec (.reserved [0x55]) (posted ⟨3, [0x55]⟩))).map (fun t => (t.fault, t.trace, t.resp, t.phase)) =
      some (.reservedOp, [], none, .idle) := by decide
/-- F2: a request during a transaction. -/
theorem test_reentrant :
    (nextOf (exec (.encode []) (writing none))).map (fun t => (t.fault, t.bus, t.phase, t.trace)) =
      some (.reentrant, .acquired, .wrWait, [.issue .select, .answer .ok, .issue (.write [0x01])]) := by decide
/-- P1's burst. -/
theorem test_getFirmwareVersion :
    (nextOf (exec (.getFirmwareVersion .sendCommand) State.reset)).map (fun t => (t.wbuf, t.curFrame)) =
      some (0x01 :: frame02, some frame02) := by decide
theorem test_spiDataWrite :
    (nextOf (exec (.spiDataWrite frame02) State.reset)).map (fun t => (t.wbuf, t.trace)) =
      some (0x01 :: frame02, [.issue .select]) := by decide
/-- P4: a stopped block leaves the request in the latch. -/
theorem test_stopped : perform true .accept stopped = .next stopped := rfl
/-- W7 and the first half of W5: a failed select. -/
theorem test_select_failed :
    ((selecting (some (.err eA))).act false).resp = some ⟨.transportError, .select, false, some eA, none, none, none⟩ ∧
    ((selecting (some (.err eA))).act true).phase = .deselWait ∧
    ((selecting (some (.err eA))).act true).bus = .indeterminate := by decide
/-- W4: a failed write, then a failed deselect, whatever the two values. -/
theorem test_two_failures (eA eB : TErr) :
    ((deselecting (some eA) (some (.err eB))).act true).resp =
      some ⟨.transportError, .write, true, some eA, some eB, none, none⟩ ∧
    ((deselecting (some eA) (some (.err eB))).act true).bus = .indeterminate := ⟨rfl, rfl⟩
/-- W1: the last step. -/
theorem test_all_ok :
    ((deselecting none (some .ok)).act false).resp = some okResponse ∧
    ((deselecting none (some .ok)).act false).bus = .released := by decide
/-- 60_exceptions.md R131: a number for a failed write alone, and the step that acts on it is the same for any record of
earlier events, which names the draw (log entry 12). -/
theorem test_bytesReached :
    (writing (some (.err eA))).bytesReached = some (Config.bytesReached 4 % 2) ∧
    (writing (some .ok)).bytesReached = none ∧
    (State.act true { writing (some (.err eA)) with trace := [] }).wrFail =
      ((writing (some (.err eA))).act true).wrFail := ⟨rfl, rfl, rfl⟩
/-- 10_state.md R32, row W4 of the table in 95_test_vectors.md: release_failed, stage WRITE, status TRANSPORT_ERROR. -/
theorem test_statusByte : packStatus .transportError .write true = 0x1A ∧ readStatusByte 0x1B = none := by decide
/-- The codes of 10_state.md R22, R25 and R30. -/
theorem test_codes :
    phaseCode .wrWait = 0b10 ∧ phaseCode .deselWait = 0b11 ∧ busCode .indeterminate = 2 ∧ faultCode .reentrant = 2 := by
  decide

/-! ### Witnesses: the hypotheses of each obligation can be met -/

/-- OpSelectsExactlyOneRow and DecodeEncodeBothWays: bytes that decode, with an unused bit of the op byte set. -/
theorem witness_decodes : decode .request [0xFC, 0x02] = .ok (.encode [0x02]) ∧
    canonicalBytes .request [0xFC, 0x02] = [0x00, 0x02] := ⟨rfl, by decide⟩
/-- EncoderLengthCheck, FrameLayoutAndChecksums, EncodeCompletes, SendCommandBeginsBurst and
SendCommandOverflowTouchesNoBus: operands on both sides of the bound. -/
theorem witness_bound : (copies 254 0xFF).length ≤ 254 ∧ (copies 255 0xFF).length > 254 := by
  rw [copies_length, copies_length]; decide
/-- ProducedFramesObeyLaws, FrameAndBurstOffsets, EncoderIsInjective, NeverProducedFramesAndSizes: the largest operand
encodes. -/
theorem witness_encodes :
    enc (copies 254 0xFF) = .frame (frameOf (copies 254 0xFF)) ∧ lenByte (copies 254 0xFF) = 0xFF :=
  ⟨enc_fits (by rw [copies_length]; decide), by simp only [lenByte, frameLen, copies_length]; decide⟩
/-- DcsRange: an operand whose sum is a multiple of 256. -/
theorem witness_zero_sum : byteSum [0x00] % 256 = 0 ∧ dcsByte [0x00] = 0x2C := by decide
/-- Every completion statement: an idle block without a fault. -/
theorem witness_idle : State.reset.fault = .none ∧ State.reset.phase = .idle ∧ IdleClean State.reset :=
  ⟨rfl, rfl, fun _ => ⟨rfl, rfl, rfl, rfl, rfl, rfl, rfl⟩⟩
/-- EncodeFrameConditions. -/
theorem witness_encode_next : ∃ t, exec (.encode [0x02]) State.reset = .next t := ⟨_, rfl⟩
/-- WritesEndInDataWriteMarker, its second clause, and SendCommandOutcomeTable. -/
theorem witness_send_operand : enc [0x02] = .frame frame02 ∧
    (posted ⟨2, [0x02]⟩).req = some ⟨2, [0x02]⟩ ∧ (posted ⟨2, [0x02]⟩).phase = .idle ∧
    IdleClean (posted ⟨2, [0x02]⟩) ∧ (posted ⟨2, [0x02]⟩).fault = .none :=
  ⟨by decide, rfl, rfl, fun _ => ⟨rfl, rfl, rfl, rfl, rfl, rfl, rfl⟩, rfl⟩
/-- WriteFrameOutcomeTable. -/
theorem witness_write_operand : (posted ⟨1, []⟩).req = some ⟨1, []⟩ ∧ (posted ⟨1, []⟩).phase = .idle ∧
    IdleClean (posted ⟨1, []⟩) ∧ (posted ⟨1, []⟩).fault = .none :=
  ⟨rfl, rfl, fun _ => ⟨rfl, rfl, rfl, rfl, rfl, rfl, rfl⟩, rfl⟩
/-- BusyRequestFaultsReentrant and BusyDataWriteFaultsReentrant. -/
theorem witness_busy : Instr.toRequest (.reserved []) ≠ none ∧ (writing none).fault = .none ∧
    (writing none).phase ≠ .idle := by decide
/-- MeaningsStopOnlyWhenBlockStopped, ModelFaultsStopTheBlock (its last clause) and FaultedStateKeepsEffects. -/
theorem witness_stopped : stopped.fault ≠ .none ∧ step stopped = .next stopped.tick := ⟨by decide, rfl⟩
/-- ModelFaultsStopTheBlock, its first two clauses. -/
theorem witness_faulting : (posted ⟨3, []⟩).fault = .none ∧ (posted ⟨3, []⟩).req = some ⟨3, []⟩ ∧
    (posted ⟨3, []⟩).phase = .idle ∧
    ({ writing none with req := some ⟨0, []⟩ } : State).fault = .none ∧
    ({ writing none with req := some ⟨0, []⟩ } : State).phase ≠ .idle := by decide
/-- SelectOkWritesWholeBurst and FailedSelectNeverWrites. -/
theorem witness_select_answered : (selecting (some .ok)).fault = .none ∧ (selecting (some .ok)).phase = .selWait ∧
    (selecting (some .ok)).ans = some .ok ∧ (selecting (some (.err eA))).ans = some (.err eA) := by decide
/-- WriteAnsweredReleasesBus and DeselectAnsweredFinishes. -/
theorem witness_write_answered : (writing (some (.err eA))).fault = .none ∧ (writing (some (.err eA))).phase = .wrWait ∧
    (writing (some (.err eA))).ans = some (.err eA) ∧ (deselecting none (some .ok)).phase = .deselWait ∧
    (deselecting none (some .ok)).ans = some .ok := by decide
/-- FinishReportsFirstFailure: a state for each clause. -/
theorem witness_failures : ({ deselecting none none with selFail := some eA } : State).selFail = some eA ∧
    (deselecting (some eA) none).selFail = none ∧ (deselecting (some eA) none).wrFail = some eA ∧
    (deselecting none none).wrFail = none := by decide
/-- UnansweredCallHangs. -/
theorem witness_hang : (writing none).phase ≠ .idle ∧ (writing none).ans = none ∧
    performAll true [.act, .accept, .post ⟨3, []⟩] (writing none) = .next { writing none with req := some ⟨3, []⟩ } :=
  ⟨by decide, rfl, rfl⟩
/-- ThreeAnswersCompleteSession. -/
theorem witness_three_answers : (selecting none).fault = .none ∧ (selecting none).phase ≠ .idle ∧
    (selecting none).req = none ∧
    ([.answer .ok, .act, .answer .ok, .act, .answer .ok, .act] : List (Action TErr)).Sublist
      [.answer .ok, .act, .answer .ok, .accept, .act, .answer .ok, .act] := by decide
/-- StepRunsDecodedRequest and FetchWordRunsNext. -/
theorem witness_fetch : (State.reset.withFetchWord 8 1).turn = .accept ∧ (State.reset.withFetchWord 8 1).fault = .none ∧
    (State.reset.withFetchWord 8 1).req = some ⟨opOfByte 0x01, []⟩ ∧
    decode .request [0x01] = .ok (.writeFrame []) ∧ decodeTableWord 8 1 = some (.writeFrame []) :=
  ⟨rfl, rfl, rfl, rfl, by decide⟩
/-- StepOtherMoves: a state for each clause; an act without an answer, one in IDLE with an answer in the latch, and one
with a fault set. -/
theorem witness_moves : stopped.turn = .accept ∧ (selecting (some .ok)).turn = .act ∧
    (selecting none).turn = .act ∧ (selecting none).ans = none ∧
    step (selecting none) = .next (selecting none).tick ∧
    step { State.reset with turn := .act, ans := some .ok } =
      .next (State.tick { State.reset with turn := .act, ans := some .ok }) ∧
    step { selecting (some .ok) with fault := .reentrant } =
      .next (State.tick { selecting (some .ok) with fault := .reentrant }) ∧
    ({ selecting none with turn := .answer } : State).outstanding = true ∧
    ({ State.reset with turn := .answer } : State).outstanding = false ∧
    State.reset.turn = .post ∧ State.reset.req = none ∧ (posted ⟨0, []⟩).req ≠ none :=
  ⟨rfl, rfl, rfl, rfl, rfl, rfl, rfl, by decide, by decide, rfl, rfl, by decide⟩
/-- StateInvariantsKept: a state in the middle of a session that meets R37, and a step of it that acts. -/
theorem witness_inv : Inv (selecting (some .ok)) ∧ ∃ t, step (selecting (some .ok)) = .next t ∧ t.phase = .wrWait := by
  refine ⟨⟨?_, ?_, ?_, ?_, ?_, ?_⟩, _, rfl, rfl⟩
  · intro h; simp [selecting] at h
  · intro _; exact ⟨.inl rfl, rfl⟩
  · intro a h; simp only [selecting, Option.some.injEq] at h; subst h; exact ⟨by decide, rfl⟩
  · intro c h; simp [selecting] at h
  · intro h; simp [selecting] at h
  · rfl
/-- TransactionFieldsKept and SessionDisciplineKept, in the middle of a session. -/
theorem witness_session : BurstOfOperand (selecting (some .ok)) ∧ OneFailure (selecting (some .ok)) ∧
    IdleClean (selecting (some .ok)) ∧ SessionTrace Config.releaseOnSelectFail (selecting (some .ok)) :=
  ⟨fun _ => .inl ⟨rfl, rfl, rfl⟩, ⟨fun _ => ⟨rfl, rfl⟩, .inl rfl⟩, fun h => by simp [selecting] at h,
    fun h => by simp [selecting] at h, [], by simp, rfl⟩
/-- ResponsesStayWellFormed, BusWrittenOnlyByAnswers, PhaseFollowsSequencer, ResponseDrivenAtCompletion: a step that
changes the bus record, the phase and the response. -/
theorem witness_completion : ∃ t, step (deselecting none (some .ok)) = .next t ∧
    t.bus ≠ (deselecting none (some .ok)).bus ∧ t.phase ≠ (deselecting none (some .ok)).phase ∧
    t.resp = some okResponse ∧ (deselecting none (some .ok)).resp = none := ⟨_, rfl, by decide, by decide, rfl, rfl⟩
/-- TraceOnlyGrows: a step that issues a call. -/
theorem witness_trace_grows : ∃ t, step (writing (some .ok)) = .next t ∧
    t.trace = (writing (some .ok)).trace ++ [.issue .deselect] := ⟨_, rfl, rfl⟩
/-- SequentialHostNeverReentrant. -/
theorem witness_sequential : HostSequential State.reset ∧ LatchedInIdle State.reset ∧
    ∃ t, step State.reset = .next t := ⟨fun _ _ => ⟨rfl, rfl⟩, fun h => absurd rfl h, ⟨_, rfl⟩⟩
/-- BothOrdersAdmitted. -/
theorem witness_both_orders : ({ deselecting none (some .ok) with req := some ⟨1, []⟩ } : State).fault = .none ∧
    ({ deselecting none (some .ok) with req := some ⟨1, []⟩ } : State).phase = .deselWait ∧
    ({ deselecting none (some .ok) with req := some ⟨1, []⟩ } : State).ans = some .ok := by decide
/-- HostWritesOnlyEmptyLatch. -/
theorem witness_latch : State.reset.req = none ∧ (posted ⟨0, []⟩).req = some ⟨0, []⟩ := by decide

end Sys2Proof.Tests
end

section
/-! The state family (10_state.md): the block's record at reset. -/

namespace Sys2Proof.Machine

/-- Settles O57: `State.reset` gives each field of R38's table its value, so each line holds by definition. -/
theorem resetValues : Obligations.ResetValues := by
  unfold Obligations.ResetValues
  exact ⟨rfl, rfl, rfl, rfl, rfl, rfl, rfl, rfl, rfl, rfl, rfl, rfl, rfl⟩

end Sys2Proof.Machine
end

section
/-! The frame encoder's family (40_frame_encoder.md): the frame's layout and computed bytes, and the accept steps of
ENCODE, SEND_COMMAND and GET_FIRMWARE_VERSION in IDLE. -/

namespace Sys2Proof.Machine

/-! ### The layout and the computed bytes -/

/-- The accumulator loop of R87 is a left fold over PD. -/
theorem dcsLoop_eq_foldl (acc : Int) (pd : List Byte) :
    dcsLoop acc pd = pd.foldl (fun acc b => acc - (b.toNat : Int)) acc := by
  induction pd generalizing acc with
  | nil => rfl
  | cons b bs ih => exact ih (acc - b.toNat)

/-- DCS through the fold (R87). -/
theorem dcsByte_eq_foldl (pd : List Byte) :
    dcsByte pd = lo8 (pd.foldl (fun acc b => acc - (b.toNat : Int)) (-0xD4)) :=
  congrArg lo8 (dcsLoop_eq_foldl (-0xD4) pd)

/-- LEN of a PD that fits is not truncated (R84). -/
theorem lenByte_toNat {pd : List Byte} (h : pd.length ≤ maxPd) : (lenByte pd).toNat = pd.length + 1 := by
  have hlen : pd.length ≤ 254 := h
  rw [lenByte, frameLen, BitVec.toNat_ofNat]
  exact Nat.mod_eq_of_lt (by omega)

/-- LCS of a PD that fits is 256 - LEN: the modulus wraps `-LEN`, in -255..-1, exactly once (R85). -/
theorem lcsByte_toNat {pd : List Byte} (h : pd.length ≤ maxPd) : (lcsByte pd).toNat = 256 - (pd.length + 1) := by
  have hmod : ((lcsByte pd).toNat : Int) = -((pd.length + 1 : Nat) : Int) % 256 := lo8_toNat _
  have hlen : pd.length ≤ 254 := h
  omega

/-- Settles O6: a PD that fits encodes to `frameOf`, whose DCS is the fold, and LEN and LCS are as `lenByte_toNat` and
`lcsByte_toNat` say. -/
theorem frameLayoutAndChecksums : Obligations.FrameLayoutAndChecksums := by
  unfold Obligations.FrameLayoutAndChecksums
  intro pd h
  refine ⟨?_, lenByte_toNat h, lcsByte_toNat h⟩
  rw [enc_fits h, ← dcsByte_eq_foldl]
  rfl

/-- Settles O5: the two sides of the bound are `enc_too_long` and `enc_fits`. -/
theorem encoderLengthCheck : Obligations.EncoderLengthCheck := by
  unfold Obligations.EncoderLengthCheck
  exact fun pd => ⟨enc_too_long, fun h => ⟨frameOf pd, enc_fits h⟩⟩

/-! ### The accept steps in IDLE -/

/-- ENCODE of a PD that fits. -/
theorem exec_encode_fits {pd : List Byte} {s : State} (hf : s.fault = .none) (hp : s.phase = .idle)
    (h : pd.length ≤ maxPd) :
    exec (.encode pd) s =
      .next ((State.capture .encode pd { s with req := none }).respond (encodedResponse (frameOf pd))) := by
  rw [exec_encode, acceptStep_idle hf hp, encodeBody_fits h]

/-- ENCODE of a PD that does not. -/
theorem exec_encode_too_long {pd : List Byte} {s : State} (hf : s.fault = .none) (hp : s.phase = .idle)
    (h : maxPd < pd.length) :
    exec (.encode pd) s =
      .next ((State.capture .encode pd { s with req := none }).respond (overflowResponse pd.length)) := by
  rw [exec_encode, acceptStep_idle hf hp, encodeBody_too_long h]

/-- SEND_COMMAND of a PD that fits, with the whole next state. -/
theorem exec_sendCommand_fits {pd : List Byte} {s : State} (hf : s.fault = .none) (hp : s.phase = .idle)
    (h : pd.length ≤ maxPd) :
    exec (.sendCommand pd) s = .next
      { s with
        req := none, curOp := some .sendCommand, curPd := pd, curFrame := some (frameOf pd)
        wbuf := burstOf (frameOf pd), trace := s.trace ++ [.issue .select], phase := .selWait } := by
  rw [exec_sendCommand, acceptStep_idle hf hp, sendBody_fits h]
  rfl

/-- Settles O14: on each side of the bound the accept step drives the encoder's response. -/
theorem encodeCompletes : Obligations.EncodeCompletes := by
  unfold Obligations.EncodeCompletes
  intro pd s hf hp
  constructor
  · intro h
    exact ⟨frameOf pd, _, enc_fits h, exec_encode_fits hf hp h, State.respond_resp _ _⟩
  · intro h
    exact ⟨_, exec_encode_too_long hf hp h, State.respond_resp _ _⟩

/-! ### GET_FIRMWARE_VERSION -/

/-- Carried by ENCODE, the catalog command is ENCODE of PD = [02] (R94). -/
theorem exec_getFirmwareVersion_encode (s : State) :
    exec (.getFirmwareVersion .encode) s = exec (.encode [0x02]) s := rfl

/-- Carried by SEND_COMMAND, it is SEND_COMMAND of PD = [02] (R94). -/
theorem exec_getFirmwareVersion_sendCommand (s : State) :
    exec (.getFirmwareVersion .sendCommand) s = exec (.sendCommand [0x02]) s := rfl

/-- The catalog command's PD fits. -/
theorem firmwareVersionPd_fits : ([0x02] : List Byte).length ≤ maxPd := by decide

/-- The corrected bytes of R94: LEN 02, LCS FE, DCS 2A. -/
theorem frameOf_firmwareVersionPd :
    frameOf [0x02] = [0x00, 0x00, 0xFF, 0x02, 0xFE, 0xD4, 0x02, 0x2A, 0x00] := by decide

/-- Settles O21: the catalog command is its carrying request with PD = [02], whose accept step is known and whose frame is
computed. -/
theorem getFirmwareVersionBytes : Obligations.GetFirmwareVersionBytes := by
  unfold Obligations.GetFirmwareVersionBytes
  refine ⟨fun s hf hp => ⟨?encode, ?sendCommand⟩,
    fun s => ⟨exec_getFirmwareVersion_encode s, exec_getFirmwareVersion_sendCommand s⟩,
    decodeRequest_sendCommand [0x02]⟩
  case encode =>
    rw [exec_getFirmwareVersion_encode, exec_encode_fits hf hp firmwareVersionPd_fits, frameOf_firmwareVersionPd]
    exact ⟨_, rfl, State.respond_resp _ _⟩
  case sendCommand =>
    rw [exec_getFirmwareVersion_sendCommand, exec_sendCommand_fits hf hp firmwareVersionPd_fits,
      frameOf_firmwareVersionPd]
    rfl

end Sys2Proof.Machine
end

section
/-! The write controller's family (41_bus_transaction.md): the response FINISH builds, a call the transport leaves
unanswered, and the block's steps on an answer. -/

namespace Sys2Proof.Machine

variable {E : Type}

/-! ### FINISH(d) -/

/-- The deselect's payload is that of a failed deselect. -/
theorem bind_answerPayload_eq_some {d : Option (Answer E)} {e : E} :
    d.bind answerPayload = some e ↔ d = some (.err e) := by
  rcases d with _ | _ | e' <;> simp [answerPayload]

/-- There is no such payload when the deselect, if one was issued, did not fail. -/
theorem bind_answerPayload_eq_none {d : Option (Answer E)} (h : ∀ e, d ≠ some (.err e)) :
    d.bind answerPayload = none :=
  Option.eq_none_iff_forall_ne_some.mpr fun e he => h e (bind_answerPayload_eq_some.mp he)

/-- A failed select is the first failure, whatever came after it (R110). -/
theorem finishResponse_of_selFail {s : State E} {e : E} (hs : s.selFail = some e) (d : Option (Answer E)) :
    (finishResponse d s).status = .transportError ∧ (finishResponse d s).stage = .select ∧
      (finishResponse d s).err = some e := by
  simp [finishResponse, firstFailure, hs]

/-- A failed write is the first failure when the select did not fail (R110). -/
theorem finishResponse_of_wrFail {s : State E} {e : E} (hs : s.selFail = none) (hw : s.wrFail = some e)
    (d : Option (Answer E)) :
    (finishResponse d s).status = .transportError ∧ (finishResponse d s).stage = .write ∧
      (finishResponse d s).err = some e := by
  simp [finishResponse, firstFailure, hs, hw]

/-- A failed deselect is the first failure when nothing failed before it (R110). -/
theorem finishResponse_of_deselFail {s : State E} (hs : s.selFail = none) (hw : s.wrFail = none) (e : E) :
    (finishResponse (some (.err e)) s).status = .transportError ∧
      (finishResponse (some (.err e)) s).stage = .deselect ∧ (finishResponse (some (.err e)) s).err = some e := by
  simp [finishResponse, firstFailure, answerPayload, hs, hw]

/-- Without a failed call the request ends in OK (R110). -/
theorem finishResponse_of_noFailure {s : State E} {d : Option (Answer E)} (hs : s.selFail = none)
    (hw : s.wrFail = none) (hd : ∀ e, d ≠ some (.err e)) :
    (finishResponse d s).status = .ok ∧ (finishResponse d s).stage = .none ∧ (finishResponse d s).err = none := by
  simp [finishResponse, firstFailure, bind_answerPayload_eq_none hd, hs, hw]

/-- `release_failed` flags a failed deselect after an earlier failure (R110). -/
theorem finishResponse_releaseFailed_iff {d : Option (Answer E)} {s : State E} :
    (finishResponse d s).releaseFailed = true ↔
      (s.selFail ≠ none ∨ s.wrFail ≠ none) ∧ ∃ e, d = some (.err e) := by
  simp only [finishResponse, Bool.and_eq_true, Bool.or_eq_true, Option.isSome_iff_exists, Option.ne_none_iff_exists',
    bind_answerPayload_eq_some]

/-- `err_release` holds the deselect's payload exactly under that flag (R110). -/
theorem finishResponse_errRelease (d : Option (Answer E)) (s : State E) :
    (finishResponse d s).errRelease =
      if (finishResponse d s).releaseFailed then d.bind answerPayload else none := rfl

/-- Settles O30: the witness is `finishResponse`, one lemma per failed call and one for the later failed release. -/
theorem finishReportsFirstFailure : Obligations.FinishReportsFirstFailure := by
  unfold Obligations.FinishReportsFirstFailure
  intro E d s
  obtain ⟨-, -, hframe, hlength⟩ := finishResponse_cases d s
  refine ⟨finishResponse d s, rfl, fun e hs => finishResponse_of_selFail hs d,
    fun e hs hw => finishResponse_of_wrFail hs hw d, ?deselFailed, finishResponse_of_noFailure,
    finishResponse_releaseFailed_iff, ?flagged, ?notFlagged, hframe, hlength⟩
  case deselFailed =>
    rintro e hs hw rfl
    exact finishResponse_of_deselFail hs hw e
  case flagged =>
    intro e hrf hd
    rw [finishResponse_errRelease, if_pos hrf]
    exact bind_answerPayload_eq_some.mpr hd
  case notFlagged =>
    intro hrf
    rw [finishResponse_errRelease, hrf]
    rfl

/-! ### An unanswered call -/

/-- What R120 lets happen from `s` to `t` while a call stays unanswered: the session stands still, the sticky fault is
kept or becomes REENTRANT, and a latched request is kept unless the fault changed. -/
structure StandsStill (s t : State E) : Prop where
  phase    : t.phase = s.phase
  ans      : t.ans = s.ans
  resp     : t.resp = s.resp
  trace    : t.trace = s.trace
  bus      : t.bus = s.bus
  curOp    : t.curOp = s.curOp
  curPd    : t.curPd = s.curPd
  curFrame : t.curFrame = s.curFrame
  wbuf     : t.wbuf = s.wbuf
  fault    : t.fault = s.fault ∨ t.fault = .reentrant
  req      : ∀ r, s.req = some r → t.fault = s.fault → t.req = some r

theorem StandsStill.refl (s : State E) : StandsStill s s :=
  ⟨rfl, rfl, rfl, rfl, rfl, rfl, rfl, rfl, rfl, .inl rfl, fun _ h _ => h⟩

/-- A fault that is back at its first value never changed: once it is REENTRANT it stays so. -/
theorem StandsStill.fault_eq_of_trans {s u t : State E} (hsu : StandsStill s u) (hut : StandsStill u t)
    (h : t.fault = s.fault) : u.fault = s.fault := by
  rcases hsu.fault with hu | hu
  · exact hu
  · have ht : t.fault = .reentrant := hut.fault.elim (fun e => e.trans hu) id
    rw [hu, ← h, ht]

theorem StandsStill.trans {s u t : State E} (hsu : StandsStill s u) (hut : StandsStill u t) : StandsStill s t where
  phase := hut.phase.trans hsu.phase
  ans := hut.ans.trans hsu.ans
  resp := hut.resp.trans hsu.resp
  trace := hut.trace.trans hsu.trace
  bus := hut.bus.trans hsu.bus
  curOp := hut.curOp.trans hsu.curOp
  curPd := hut.curPd.trans hsu.curPd
  curFrame := hut.curFrame.trans hsu.curFrame
  wbuf := hut.wbuf.trans hsu.wbuf
  fault := hut.fault.elim (fun e => e ▸ hsu.fault) .inr
  req r hr h := by
    have hu : u.fault = s.fault := hsu.fault_eq_of_trans hut h
    exact hut.req r (hsu.req r hr hu) (h.trans hu.symm)

/-- REENTRANT, raised by a block without a fault, takes the latched request and nothing else. -/
theorem standsStill_reentrant {s : State E} (hf : s.fault = .none) :
    StandsStill s (State.raise .reentrant { s with req := none }) where
  phase := rfl
  ans := rfl
  resp := rfl
  trace := rfl
  bus := rfl
  curOp := rfl
  curPd := rfl
  curFrame := rfl
  wbuf := rfl
  fault := .inr rfl
  req _ _ h := by simp [hf] at h

/-- The host's write changes the latch at most, and a full latch not at all. -/
theorem standsStill_post (r : Request) (s : State E) : StandsStill s (s.post r) where
  phase := State.post_phase r s
  ans := State.post_ans r s
  resp := State.post_resp r s
  trace := State.post_trace r s
  bus := State.post_bus r s
  curOp := State.post_curOp r s
  curPd := State.post_curPd r s
  curFrame := State.post_curFrame r s
  wbuf := State.post_wbuf r s
  fault := .inl (State.post_fault r s)
  req r' hr _ := by rw [post_full (by simp [hr]), hr]

/-- Without an answer the block has no step on one. -/
theorem canAct_eq_false_of_ans_none {s : State E} (ha : s.ans = none) : s.canAct = false := by
  simp [State.canAct, ha]

/-- One move other than an answer. -/
theorem perform_standsStill {release : Bool} {a : Action TErr} {s t : State} (hp : s.phase ≠ .idle)
    (ha : s.ans = none) (hno : ∀ x, a ≠ .answer x) (h : perform release a s = .next t) : StandsStill s t := by
  rcases perform_cases release a s with
    ⟨r, -, -, -, hi, e⟩ | ⟨r, -, hf, -, -, e⟩ | ⟨-, -, e⟩ | ⟨-, e⟩ | ⟨x, hx, -⟩ | ⟨r, -, e⟩
  · exact absurd hi hp
  · cases e.symm.trans h
    exact standsStill_reentrant hf
  · cases e.symm.trans h
    exact .refl _
  · cases e.symm.trans h
    rw [act_disabled (canAct_eq_false_of_ans_none ha)]
    exact .refl _
  · exact absurd hx (hno x)
  · cases e.symm.trans h
    exact standsStill_post r s

/-- A first move has a next state, from which the rest is run. -/
theorem performAll_cons_eq_next {release : Bool} {a : Action TErr} {as : List (Action TErr)} {s t : State} :
    performAll release (a :: as) s = .next t ↔
      ∃ u, perform release a s = .next u ∧ performAll release as u = .next t := by
  obtain ⟨u, hu⟩ := perform_has_next release a s
  simp [performAll, hu]

/-- Any moves other than an answer: each leaves the block waiting, so the next one does too. -/
theorem performAll_standsStill {release : Bool} {as : List (Action TErr)} {s t : State} (hp : s.phase ≠ .idle)
    (ha : s.ans = none) (hno : ∀ x ∈ as, ∀ a, x ≠ .answer a) (h : performAll release as s = .next t) :
    StandsStill s t := by
  induction as generalizing s with
  | nil =>
    cases h
    exact .refl _
  | cons a as ih =>
    obtain ⟨u, hu, hrest⟩ := performAll_cons_eq_next.mp h
    obtain ⟨hnoa, hnoas⟩ := List.forall_mem_cons.mp hno
    have hsu : StandsStill s u := perform_standsStill hp ha hnoa hu
    exact hsu.trans (ih (hsu.phase ▸ hp) (hsu.ans.trans ha) hnoas hrest)

/-- Settles O33: the block stands still through every move that is no answer (`performAll_standsStill`). -/
theorem unansweredCallHangs : Obligations.UnansweredCallHangs := by
  unfold Obligations.UnansweredCallHangs
  intro release as s t hp ha hno h
  obtain ⟨hphase, hans, hresp, htrace, hbus, hop, hpd, hframe, hwbuf, hfault, hreq⟩ :=
    performAll_standsStill hp ha hno h
  exact ⟨hphase, hans.trans ha, hresp, htrace, hbus, hop, hpd, hframe, hwbuf, hfault, hreq⟩

/-! ### The block's steps on an answer -/

/-- Settles O26: the step in SEL_WAIT on `ok` (R105). -/
theorem selectOkWritesWholeBurst : Obligations.SelectOkWritesWholeBurst := by
  unfold Obligations.SelectOkWritesWholeBurst
  intro E release s hf hp ha
  exact act_selWait hf hp ha release

/-- Settles O27: the step in SEL_WAIT on `err(e)`, for each value of RELEASE_ON_SELECT_FAIL (R106, R107). -/
theorem failedSelectNeverWrites : Obligations.FailedSelectNeverWrites := by
  unfold Obligations.FailedSelectNeverWrites
  intro E e s hf hp ha
  exact ⟨act_selWait hf hp ha true, act_selWait hf hp ha false⟩

/-- Settles O28: the step in WR_WAIT issues the deselect on either answer (R108). -/
theorem writeAnsweredReleasesBus : Obligations.WriteAnsweredReleasesBus := by
  unfold Obligations.WriteAnsweredReleasesBus
  intro E release a s hf hp ha
  rw [act_wrWait hf hp ha]
  cases a with
  | ok => rfl
  | err e => rfl

/-- Settles O29: the step in DESEL_WAIT ends in FINISH on either answer (R109). -/
theorem deselectAnsweredFinishes : Obligations.DeselectAnsweredFinishes := by
  unfold Obligations.DeselectAnsweredFinishes
  intro E release a s hf hp ha
  rw [act_deselWait hf hp ha]
  cases a with
  | ok => rfl
  | err e => rfl

end Sys2Proof.Machine
end

section
/-! The encodings (30_encoding.md): decoder and encoder in both directions. -/

namespace Sys2Proof

/-! ### The encoder and the decoder, format by format -/

/-- A decoded request is written as its op byte and its data. -/
theorem encode_decodeRequest (r : Request) : encode (decodeRequest r) = (.request, byteOfOp r.op :: r.data) := by
  rcases decodeRequest_cases r with ⟨ho, hi⟩ | ⟨ho, hi⟩ | ⟨ho, hi⟩ | ⟨ho, hi⟩ <;> rw [hi, ho] <;> rfl

/-- The port's decoder reads the encoder's op byte back. -/
theorem decode_request_byteOfOp (op : BitVec 2) (data : List Byte) :
    decode .request (byteOfOp op :: data) = .ok (decodeRequest ⟨op, data⟩) := by
  rw [decode, opOfByte_byteOfOp]

/-- The command-level decoder reads the catalog command back under either carrier. -/
theorem decode_command_getFirmwareVersion (c : Carrier) :
    decode .command [byteOfOp c.code, getFirmwareVersionCode] = .ok (.getFirmwareVersion c) := by
  rw [decode, opOfByte_byteOfOp]
  exact decodeCommand_eq_ok.mpr ⟨c, rfl, rfl, rfl⟩

/-- The burst decoder accepts the marker and no other function-select byte (R68). -/
theorem decode_burst_eq_ok {m : Byte} {frame : List Byte} {i : Instr} :
    decode .burst (m :: frame) = .ok i ↔ m = spiDataWriteMarker ∧ i = .spiDataWrite frame := by
  by_cases hm : m = spiDataWriteMarker <;> simp [decode, hm, eq_comm]

/-- No bytes are no instruction, in every format. -/
theorem decode_nil (fmt : Format) : decode fmt [] = .error .truncated := by
  cases fmt <;> rfl

/-- No instruction term is ill-formed (R71, R75). -/
theorem wellFormed_eq_true (i : Instr) : i.wellFormed = true := by
  cases i <;> rfl

/-- What is encoded decodes to itself. -/
theorem decode_encode (i : Instr) : decode (encode i).1 (encode i).2 = .ok i := by
  cases i with
  | encode pd => exact decode_request_byteOfOp 0 pd
  | writeFrame frame => exact decode_request_byteOfOp 1 frame
  | sendCommand pd => exact decode_request_byteOfOp 2 pd
  | reserved data => exact decode_request_byteOfOp 3 data
  | getFirmwareVersion c => exact decode_command_getFirmwareVersion c
  | spiDataWrite frame => exact decode_burst_eq_ok.mpr ⟨rfl, rfl⟩

/-- What decodes is written, in its format, as its canonical bytes (log entry 6). -/
theorem encode_of_decode {fmt : Format} {bytes : List Byte} {i : Instr} (h : decode fmt bytes = .ok i) :
    encode i = (fmt, canonicalBytes fmt bytes) := by
  cases bytes with
  | nil => simp [decode_nil] at h
  | cons b rest =>
    cases fmt with
    | request =>
      cases h
      exact encode_decodeRequest _
    | command =>
      obtain ⟨c, hop, rfl, rfl⟩ := decodeCommand_eq_ok.mp h
      simp [encode, canonicalBytes, hop]
    | burst =>
      obtain ⟨rfl, rfl⟩ := decode_burst_eq_ok.mp h
      rfl

/-- Settles O1: `decode_encode` one way, `encode_of_decode` the other. -/
theorem decodeEncodeBothWays : Obligations.DecodeEncodeBothWays := by
  unfold Obligations.DecodeEncodeBothWays
  refine ⟨fun i _ => decode_encode i, fun fmt bytes i h => ⟨wellFormed_eq_true i, ?_⟩⟩
  rw [encode_of_decode h]
  exact ⟨rfl, rfl⟩

/-- Settles O2: the four rows are `decodeRequest`'s, and the op's byte is read through its two low bits. -/
theorem opSelectsExactlyOneRow : Obligations.OpSelectsExactlyOneRow := by
  unfold Obligations.OpSelectsExactlyOneRow
  intro data
  exact ⟨decodeRequest_encode data, decodeRequest_writeFrame data, decodeRequest_sendCommand data,
    decodeRequest_reserved data, fun _ => rfl⟩

/-- Settles O3: each word is decoded by computation. -/
theorem specWordsDecode : Obligations.SpecWordsDecode := by
  unfold Obligations.SpecWordsDecode
  exact ⟨rfl, rfl, rfl, rfl, rfl, rfl, rfl, rfl, rfl, rfl, rfl⟩

/-- Settles O4: the expansions by computation, the bound of 253 argument bytes by `enc_eq_lengthOverflow`. -/
theorem pseudoRequestsExpand : Obligations.PseudoRequestsExpand := by
  unfold Obligations.PseudoRequestsExpand
  refine ⟨fun code extra => ⟨rfl, rfl, ?bound⟩, rfl⟩
  case bound =>
    simp only [Machine.enc_eq_lengthOverflow, exists_and_left, exists_eq, and_true, List.length_cons, Machine.maxPd]
    omega

/-- A table word is read as the request its bytes lay out (log entry 7). -/
theorem decodeRequest_requestOfTableWord {nbits w : Nat} {i : Instr} (h : decodeTableWord nbits w = some i) :
    decodeRequest (requestOfTableWord nbits w) = i := by
  unfold decodeTableWord at h
  unfold requestOfTableWord
  cases hb : bytesOfTableWord nbits w with
  | nil => simp [hb, decode_nil] at h
  | cons b data => simpa [hb, decode] using h

end Sys2Proof
end

section
/-! The frame encoder (40_frame_encoder.md): the checksums in closed form, the offset map, and the laws of every produced
frame. -/

namespace Sys2Proof.Machine

/-! ### The data checksum -/

/-- DCS in closed form (R88). -/
theorem dcsByte_eq (pd : List Byte) : dcsByte pd = lo8 (-(0xD4 + (byteSum pd : Int))) := by
  have htfi : (tfi.toNat : Int) = 0xD4 := rfl
  rw [dcsByte, dcsLoop_eq, htfi, neg_add, ← sub_eq_add_neg]

/-- DCS as a number: what is missing from TFI plus the sum to a multiple of 256. -/
theorem dcsByte_toNat (pd : List Byte) : ((dcsByte pd).toNat : Int) = -(0xD4 + (byteSum pd : Int)) % 256 := by
  rw [dcsByte_eq, lo8_toNat]

/-- Reducing modulo 256 after every subtraction instead of once at the end gives the same byte (R88). -/
theorem lo8_dcsLoop (acc : Int) (pd : List Byte) : lo8 (dcsLoop acc pd) = dcsLoop8 (lo8 acc) pd := by
  induction pd generalizing acc with
  | nil => rfl
  | cons b bs ih => rw [dcsLoop, dcsLoop8, ih, lo8_sub]

/-- The 8-bit accumulator starts at `lo8(-0xD4)` = 2C. -/
theorem dcsByte_eq_dcsLoop8 (pd : List Byte) : dcsByte pd = dcsLoop8 0x2C pd :=
  lo8_dcsLoop (-0xD4) pd

/-- Settles O8: `dcsByte_eq` and `dcsByte_eq_dcsLoop8`. -/
theorem dcsClosedFormAndByteAccumulator : Obligations.DcsClosedFormAndByteAccumulator := by
  unfold Obligations.DcsClosedFormAndByteAccumulator
  exact fun pd => ⟨dcsByte_eq pd, dcsByte_eq_dcsLoop8 pd⟩

/-- One data byte makes any DCS: `2C - b` has the DCS `b`. -/
theorem dcsByte_singleton_sub (b : Byte) : dcsByte [0x2C - b] = b := by
  rw [dcsByte_eq_dcsLoop8, dcsLoop8, dcsLoop8]
  exact sub_sub_cancel _ b

/-- Settles O9: the two values through `dcsByte_toNat`, every byte through `dcsByte_singleton_sub`. -/
theorem dcsRange : Obligations.DcsRange := by
  unfold Obligations.DcsRange
  refine ⟨fun pd => ?zero, fun pd hsum => ?start, fun b => ⟨[0x2C - b], by simp, dcsByte_singleton_sub b⟩⟩
  case zero =>
    have hdcs := dcsByte_toNat pd
    have hvalue : (0x00 : Byte).toNat = 0 := rfl
    rw [← BitVec.toNat_inj, hvalue]
    omega
  case start =>
    have hdcs := dcsByte_toNat pd
    have hvalue : (0x2C : Byte).toNat = 0x2C := rfl
    rw [← BitVec.toNat_inj, hvalue]
    omega

/-- Settles O7: `lo8_toNat`, and the modulus lies in 0..255. -/
theorem lowByteIsModulus : Obligations.LowByteIsModulus := by
  unfold Obligations.LowByteIsModulus
  exact ⟨fun v => ⟨lo8_toNat v, Int.emod_nonneg v (by decide), Int.emod_lt_of_pos v (by decide)⟩, rfl, rfl⟩

/-! ### The offset map (20_memory.md section 4) -/

/-- The six header bytes. -/
theorem frameOf_header (pd : List Byte) :
    (frameOf pd)[0]? = some preamble ∧ (frameOf pd)[1]? = some startCode1 ∧ (frameOf pd)[2]? = some startCode2 ∧
      (frameOf pd)[3]? = some (lenByte pd) ∧ (frameOf pd)[4]? = some (lcsByte pd) ∧ (frameOf pd)[5]? = some tfi :=
  ⟨rfl, rfl, rfl, rfl, rfl, rfl⟩

/-- PD and the trailer stand after the header. -/
theorem frameOf_drop (pd : List Byte) : (frameOf pd).drop 6 = pd ++ [dcsByte pd, postamble] := rfl

/-- Every offset past the header, counted from PD's first byte. -/
theorem frameOf_getElem?_add (pd : List Byte) (k : Nat) :
    (frameOf pd)[6 + k]? = (pd ++ [dcsByte pd, postamble])[k]? := by
  rw [← List.getElem?_drop, frameOf_drop]

/-- PD stands in the frame verbatim (R83). -/
theorem frameOf_getElem?_pd {pd : List Byte} {k : Nat} (h : k < pd.length) : (frameOf pd)[6 + k]? = pd[k]? := by
  rw [frameOf_getElem?_add, List.getElem?_append_left h]

/-- DCS stands after PD. -/
theorem frameOf_getElem?_dcs (pd : List Byte) : (frameOf pd)[6 + pd.length]? = some (dcsByte pd) := by
  rw [frameOf_getElem?_add, List.getElem?_append_right le_rfl, Nat.sub_self]
  rfl

/-- The postamble stands after DCS. -/
theorem frameOf_getElem?_postamble (pd : List Byte) : (frameOf pd)[7 + pd.length]? = some postamble := by
  rw [show 7 + pd.length = 6 + (pd.length + 1) by omega, frameOf_getElem?_add,
    List.getElem?_append_right (Nat.le_add_right _ 1), Nat.add_sub_cancel_left]
  rfl

/-- PD is cut out of the frame by its own length. -/
theorem frameOf_take_drop (pd : List Byte) : ((frameOf pd).drop 6).take pd.length = pd := by
  rw [frameOf_drop, List.take_left]

/-- Settles O11: the offset map, header, PD and trailer; the burst has the marker in front. -/
theorem frameAndBurstOffsets : Obligations.FrameAndBurstOffsets := by
  unfold Obligations.FrameAndBurstOffsets
  intro pd f h
  obtain ⟨-, rfl⟩ := enc_eq_frame.mp h
  obtain ⟨h0, h1, h2, h3, h4, h5⟩ := frameOf_header pd
  refine ⟨h0, h1, h2, h3, h4, h5, fun k hk => frameOf_getElem?_pd hk, ?dcs, frameOf_getElem?_postamble pd, ?past, rfl,
    fun _ => rfl⟩
  case dcs => rw [frameOf_getElem?_dcs, dcsByte_eq]
  case past => exact List.getElem?_eq_none (by rw [frameOf_length]; omega)

/-- Settles O12: frames that agree have the same length, and so cut out the same PD. -/
theorem encoderIsInjective : Obligations.EncoderIsInjective := by
  unfold Obligations.EncoderIsInjective
  intro pd pd' f h h'
  obtain ⟨-, rfl⟩ := enc_eq_frame.mp h
  obtain ⟨-, heq⟩ := enc_eq_frame.mp h'
  have hlen : pd.length = pd'.length := by
    have hframes := congrArg List.length heq
    rw [frameOf_length, frameOf_length] at hframes
    omega
  calc pd = ((frameOf pd).drop 6).take pd.length := (frameOf_take_drop pd).symm
    _ = ((frameOf pd').drop 6).take pd'.length := by rw [heq, hlen]
    _ = pd' := frameOf_take_drop pd'

/-! ### The laws of every produced frame -/

/-- A byte known to stand in a list is what `byteAt` reads. -/
theorem byteAt_eq {f : List Byte} {k : Nat} {b : Byte} (h : f[k]? = some b) : byteAt f k = b := by
  rw [byteAt, List.getD_eq_getElem?_getD, h, Option.getD_some]

@[simp] theorem byteAt_frameOf_len (pd : List Byte) : byteAt (frameOf pd) 3 = lenByte pd := rfl
@[simp] theorem byteAt_frameOf_lcs (pd : List Byte) : byteAt (frameOf pd) 4 = lcsByte pd := rfl
@[simp] theorem byteAt_frameOf_tfi (pd : List Byte) : byteAt (frameOf pd) 5 = tfi := rfl
@[simp] theorem byteAt_frameOf_dcs (pd : List Byte) : byteAt (frameOf pd) (6 + pd.length) = dcsByte pd :=
  byteAt_eq (frameOf_getElem?_dcs pd)
@[simp] theorem byteAt_frameOf_postamble (pd : List Byte) : byteAt (frameOf pd) (7 + pd.length) = postamble :=
  byteAt_eq (frameOf_getElem?_postamble pd)

/-- LEN and LCS add up to a multiple of 256 (R97). -/
theorem lenByte_add_lcsByte {pd : List Byte} (h : pd.length ≤ maxPd) :
    ((lenByte pd).toNat + (lcsByte pd).toNat) % 256 = 0 := by
  have hlen : pd.length ≤ 254 := h
  rw [lenByte_toNat h, lcsByte_toNat h]
  omega

/-- TFI, PD and DCS add up to a multiple of 256 (R97). -/
theorem tfi_add_byteSum_add_dcsByte (pd : List Byte) : (0xD4 + byteSum pd + (dcsByte pd).toNat) % 256 = 0 := by
  have hdcs := dcsByte_toNat pd
  omega

/-- The bytes that LEN counts are TFI and PD. -/
theorem frameOf_drop_take (pd : List Byte) : ((frameOf pd).drop 5).take (pd.length + 1) = tfi :: pd := by
  have hdrop : (frameOf pd).drop 5 = tfi :: (pd ++ [dcsByte pd, postamble]) := rfl
  rw [hdrop, List.take_succ_cons, List.take_left]

/-- A produced frame is valid as the chip checks it (30_encoding.md R79). -/
theorem frameValid_frameOf {pd : List Byte} (h : pd.length ≤ maxPd) : frameValid (frameOf pd) = true := by
  have hdcsAt : 5 + (pd.length + 1) = 6 + pd.length := by omega
  have hpostAt : 6 + (pd.length + 1) = 7 + pd.length := by omega
  have htfi : tfi.toNat = 0xD4 := rfl
  have hhead : (frameOf pd).take 3 = [preamble, startCode1, startCode2] := rfl
  have hlcs : (pd.length + 1 + (lcsByte pd).toNat) % 256 = 0 := by
    rw [← lenByte_toNat h]
    exact lenByte_add_lcsByte h
  have hdcs : (byteSum (tfi :: pd) + (dcsByte pd).toNat) % 256 = 0 := by
    rw [byteSum_cons, htfi]
    exact tfi_add_byteSum_add_dcsByte pd
  simp only [frameValid, byteAt_frameOf_len, byteAt_frameOf_lcs, byteAt_frameOf_tfi, lenByte_toNat h, hdcsAt, hpostAt,
    byteAt_frameOf_dcs, byteAt_frameOf_postamble, frameOf_drop_take, frameOf_length, hhead, hlcs, hdcs]
  simp

/-- Settles O10: the laws of `frameOf`, one lemma each. -/
theorem producedFramesObeyLaws : Obligations.ProducedFramesObeyLaws := by
  unfold Obligations.ProducedFramesObeyLaws
  intro pd f h
  obtain ⟨hfit, rfl⟩ := enc_eq_frame.mp h
  rw [byteAt_frameOf_dcs]
  exact ⟨lenByte_add_lcsByte hfit, tfi_add_byteSum_add_dcsByte pd, frameOf_length pd, frameOf_take_drop pd,
    frameValid_frameOf hfit⟩

/-- Settles O13: LEN and LCS as numbers (`lenByte_toNat`, `lcsByte_toNat`) decide every clause. -/
theorem neverProducedFramesAndSizes : Obligations.NeverProducedFramesAndSizes := by
  unfold Obligations.NeverProducedFramesAndSizes
  intro pd f h
  obtain ⟨hfit, rfl⟩ := enc_eq_frame.mp h
  have hn : pd.length ≤ 254 := hfit
  have hlen := lenByte_toNat hfit
  have hlcs := lcsByte_toNat hfit
  have hzero : (0x00 : Byte).toNat = 0 := rfl
  have hone : (0x01 : Byte).toNat = 1 := rfl
  have hmax : (0xFF : Byte).toNat = 255 := rfl
  simp only [byteAt_frameOf_len, byteAt_frameOf_lcs, burstOf_length, frameOf_length, ne_eq, ← BitVec.toNat_inj, hlen,
    hlcs, hzero, hone, hmax]
  refine ⟨by omega, by omega, fun hff => ?maximal, trivial, trivial, by omega⟩
  case maximal => omega

end Sys2Proof.Machine
end

section
/-! What a move can do, said once with its guards: the effects of the four agents' moves, from which the invariants and
the whole-machine rules follow case by case. -/

namespace Sys2Proof.Machine

open Sys2Proof.Safety

variable {E : Type}

/-! ### The meanings -/

/-- A request's meaning is its accept step. -/
theorem exec_of_toRequest {i : Instr} {r : Request} (h : i.toRequest = some r) (s : State) :
    exec i s = acceptStep (requestBody r) s := by
  cases i with
  | encode pd => cases h; rfl
  | writeFrame frame => cases h; rfl
  | sendCommand pd => cases h; rfl
  | reserved data => cases h; rfl
  | getFirmwareVersion c => cases c <;> cases h <;> rfl
  | spiDataWrite frame => cases h

/-- Every meaning is the accept step of a request, or SPI_DATA_WRITE's start step. -/
theorem exec_cases (i : Instr) :
    (∃ r, ∀ s : State, exec i s = acceptStep (requestBody r) s) ∨
    (∃ frame, ∀ s : State, exec i s = startStep (State.beginBurst frame) s) := by
  cases h : i.toRequest with
  | some r => exact .inl ⟨r, exec_of_toRequest h⟩
  | none =>
    cases i with
    | spiDataWrite frame => exact .inr ⟨frame, exec_spiDataWrite frame⟩
    | encode | writeFrame | sendCommand | reserved | getFirmwareVersion => cases h

/-! ### The block's steps on an answer in closed form -/

/-- The line's record after a deselect's answer (41_bus_transaction.md R109). -/
def releasedBus : Answer E → BusState
  | .ok => .released
  | .err _ => .indeterminate

/-- WR_WAIT: a failure is recorded, the deselect issued. -/
theorem writeAnswered_eq (a : Answer E) (s : State E) :
    writeAnswered a s = State.issue .deselect { s with ans := none, wrFail := (answerPayload a).or s.wrFail } := by
  cases a with
  | ok => rfl
  | err e => rfl

/-- DESEL_WAIT: the line's record, then FINISH. -/
theorem deselAnswered_eq (a : Answer E) (s : State E) :
    deselAnswered a s = State.finish (some a) { s with ans := none, bus := releasedBus a } := by
  cases a with
  | ok => rfl
  | err e => rfl

/-! ### The effects -/

/-- What the encoder answers a request with. -/
def EncoderResponse (r : Response E) : Prop :=
  (∃ f, r = encodedResponse f) ∨ ∃ n, r = overflowResponse n

/-- What a writing request keeps at acceptance: its operation, its operand, the encoded frame if there is one, and the
frame whose burst it begins (10_state.md R23). -/
inductive Captures : ReqOp → List Byte → Option (List Byte) → List Byte → Prop
  | writeFrame (frame : List Byte) : Captures .writeFrame frame none frame
  | sendCommand {pd f : List Byte} (h : enc pd = .frame f) : Captures .sendCommand pd (some f) f

/-- An accepted request before its burst begins. -/
def State.accepted (op : ReqOp) (data : List Byte) (frame? : Option (List Byte)) (s : State E) : State E :=
  { s with req := none, curOp := some op, curPd := data, curFrame := frame? }

/-- The state in which the block acts on a failed select. -/
def State.selectFailed (e : E) (s : State E) : State E :=
  { s with ans := none, bus := .indeterminate, selFail := some e }

/-- Everything a move of each agent can do, with what must hold for it. -/
inductive Effect (release : Bool) (s : State E) : Move → State E → Prop
  /-- A move that is not enabled. -/
  | stutter {m : Move} (hdis : enabled m s = false) : Effect release s m s
  | respond {r : Response E} (hf : s.fault = .none) (hp : s.phase = .idle) (hreq : s.req ≠ none)
      (hr : EncoderResponse r) : Effect release s .accept (State.respond r { s with req := none })
  | fault {f : FaultCode} (hf : s.fault = .none) (hreq : s.req ≠ none)
      (hwhy : (s.phase = .idle ∧ f = .reservedOp) ∨ (s.phase ≠ .idle ∧ f = .reentrant)) :
      Effect release s .accept (State.raise f { s with req := none })
  | begins {op : ReqOp} {data frame : List Byte} {frame? : Option (List Byte)} (hf : s.fault = .none)
      (hp : s.phase = .idle) (hreq : s.req ≠ none) (hc : Captures op data frame? frame) :
      Effect release s .accept ((s.accepted op data frame?).beginBurst frame)
  | selectOk (hf : s.fault = .none) (hp : s.phase = .selWait) (ha : s.ans = some .ok) :
      Effect release s .act (State.issue (.write s.wbuf) { s with ans := none, bus := .acquired })
  | selectReleased {e : E} (hf : s.fault = .none) (hp : s.phase = .selWait) (ha : s.ans = some (.err e))
      (hrel : release = true) : Effect release s .act ((s.selectFailed e).issue .deselect)
  | selectAbandoned {e : E} (hf : s.fault = .none) (hp : s.phase = .selWait) (ha : s.ans = some (.err e))
      (hrel : release = false) : Effect release s .act ((s.selectFailed e).finish none)
  | written {a : Answer E} (hf : s.fault = .none) (hp : s.phase = .wrWait) (ha : s.ans = some a) :
      Effect release s .act (State.issue .deselect { s with ans := none, wrFail := (answerPayload a).or s.wrFail })
  | deselected {a : Answer E} (hf : s.fault = .none) (hp : s.phase = .deselWait) (ha : s.ans = some a) :
      Effect release s .act (State.finish (some a) { s with ans := none, bus := releasedBus a })
  | answered {a : Answer E} (ho : s.outstanding = true) :
      Effect release s .answer { s with ans := some a, trace := s.trace ++ [.answer a] }
  | posted {r : Request} (hreq : s.req = none) : Effect release s .post { s with req := some r }

/-- A request accepted in IDLE. -/
theorem effect_requestBody {release : Bool} {s : State} (hf : s.fault = .none) (hp : s.phase = .idle)
    (hreq : s.req ≠ none) (r : Request) : Effect release s .accept (requestBody r { s with req := none }) := by
  rcases requestBody_cases r { s with req := none } with
    ⟨f, -, -, e⟩ | ⟨n, -, -, e⟩ | ⟨-, e⟩ | ⟨-, e⟩ | ⟨f, -, henc, e⟩ <;> rw [e]
  · exact .respond hf hp hreq (.inl ⟨f, rfl⟩)
  · exact .respond hf hp hreq (.inr ⟨n, rfl⟩)
  · exact .fault hf hreq (.inl ⟨hp, rfl⟩)
  · exact .begins hf hp hreq (.writeFrame r.data)
  · exact .begins hf hp hreq (.sendCommand henc)

/-- The block's step on an answer. -/
theorem effect_act (release : Bool) (s : State E) : Effect release s .act (s.act release) := by
  rcases act_cases release s with ⟨hdis, e⟩ | ⟨hf, a, ha, ⟨hp, e⟩ | ⟨hp, e⟩ | ⟨hp, e⟩⟩ <;> rw [e]
  · exact .stutter hdis
  · cases a with
    | ok => exact .selectOk hf hp ha
    | err e1 =>
      cases release with
      | false => exact .selectAbandoned hf hp ha rfl
      | true => exact .selectReleased hf hp ha rfl
  · rw [writeAnswered_eq]
    exact .written hf hp ha
  · rw [deselAnswered_eq]
    exact .deselected hf hp ha

/-- The transport's answer. -/
theorem effect_answer (release : Bool) (a : Answer E) (s : State E) : Effect release s .answer (s.answer a) := by
  cases ho : s.outstanding with
  | true =>
    rw [answer_outstanding ho]
    exact .answered ho
  | false =>
    rw [answer_none ho]
    exact .stutter ho

/-- The host's write. -/
theorem effect_post (release : Bool) (r : Request) (s : State E) : Effect release s .post (s.post r) := by
  by_cases hreq : s.req = none
  · rw [post_empty hreq]
    exact .posted hreq
  · rw [post_full hreq]
    exact .stutter (by simpa [enabled, Option.isSome_iff_ne_none] using hreq)

/-- The agent's move behind an action. -/
def moveOf : Action E → Move
  | .accept => .accept
  | .act => .act
  | .answer _ => .answer
  | .post _ => .post

/-- Every move has one of the effects. -/
theorem effect_of_perform {release : Bool} {a : Action TErr} {s t : State} (h : perform release a s = .next t) :
    Effect release s (moveOf a) t := by
  rcases perform_cases release a s with
    ⟨r, rfl, hf, hreq, hp, e⟩ | ⟨r, rfl, hf, hreq, hp, e⟩ | ⟨rfl, hn, e⟩ | ⟨rfl, e⟩ | ⟨x, rfl, e⟩ | ⟨r, rfl, e⟩ <;>
    cases e.symm.trans h
  · exact effect_requestBody hf hp (by simp [hreq]) r
  · exact .fault hf (by simp [hreq]) (.inr ⟨hp, rfl⟩)
  · exact .stutter (by simp [moveOf, enabled, hn])
  · exact effect_act release s
  · exact effect_answer release x s
  · exact effect_post release r s

/-- The action the free values choose is a move of the agent whose turn it is. -/
theorem moveOf_action (s : State) : moveOf s.action = s.turn := by
  unfold State.action
  cases s.turn with
  | accept | act | answer | post => rfl

/-- Every step has one of the effects of the move whose turn it is, and then the bookkeeping. -/
theorem effect_of_step {s t : State} (h : step s = .next t) :
    ∃ u, Effect Config.releaseOnSelectFail s s.turn u ∧ t = u.tick := by
  obtain ⟨u, hu, ht⟩ := step_eq_next.mp h
  exact ⟨u, moveOf_action s ▸ effect_of_perform hu, ht⟩

/-- A property that every effect keeps, and the bookkeeping too, is kept by every step. -/
theorem step_keeps (P : State → Prop) (htick : ∀ s, P s → P s.tick)
    (heffect : ∀ {s t : State} {m : Move}, Effect Config.releaseOnSelectFail s m t → P s → P t) {s t : State}
    (hs : P s) (h : step s = .next t) : P t := by
  obtain ⟨u, hu, rfl⟩ := effect_of_step h
  exact htick u (heffect hu hs)

end Sys2Proof.Machine
end

section
/-! The six invariants of 10_state.md section 5 (its rule 37), kept effect by effect. -/

namespace Sys2Proof.Machine

open Sys2Proof.Safety

section

variable {E : Type} {release : Bool} {m : Move} {s t : State E}

/-! ### Traces that grow by one event -/

@[simp] theorem issueCount_append_issue (tr : List (Event E)) (c : Call) :
    issueCount (tr ++ [.issue c]) = issueCount tr + 1 := by simp [issueCount, List.filter_cons, isIssue]
@[simp] theorem issueCount_append_answer (tr : List (Event E)) (a : Answer E) :
    issueCount (tr ++ [.answer a]) = issueCount tr := by simp [issueCount, isIssue]
@[simp] theorem answerCount_append_issue (tr : List (Event E)) (c : Call) :
    answerCount (tr ++ [.issue c]) = answerCount tr := by simp [answerCount, isIssue]
@[simp] theorem answerCount_append_answer (tr : List (Event E)) (a : Answer E) :
    answerCount (tr ++ [.answer a]) = answerCount tr + 1 := by simp [answerCount, isIssue]

/-! ### Each invariant -/

/-- Item 1: a completion clears the fields, and an answer only comes outside IDLE. -/
theorem idleClean_of_effect (he : Effect release s m t) (h : IdleClean s) : IdleClean t := by
  cases he with
  | stutter | fault | posted => exact h
  | begins | selectOk | selectReleased | written => exact fun hidle => nomatch hidle
  | selectAbandoned | deselected => exact fun _ => ⟨rfl, rfl, rfl, rfl, rfl, rfl, rfl⟩
  | respond hf hp hreq hr =>
    obtain ⟨-, -, -, -, hans, -, -⟩ := h hp
    exact fun _ => ⟨rfl, rfl, rfl, rfl, hans, rfl, rfl⟩
  | answered ho => exact fun hidle => absurd hidle ((outstanding_iff s).mp ho).1

/-- The operation of a writing request is one of the two. -/
theorem Captures.op_eq {op : ReqOp} {data frame : List Byte} {frame? : Option (List Byte)}
    (hc : Captures op data frame? frame) : op = .writeFrame ∨ op = .sendCommand := by
  cases hc with
  | writeFrame => exact .inl rfl
  | sendCommand => exact .inr rfl

/-- Item 2: the operation and the burst are set as the session begins, and stay while it is in progress. -/
theorem busyLoaded_of_effect (he : Effect release s m t) (h : BusyLoaded s) : BusyLoaded t := by
  cases he with
  | stutter | fault | posted | answered => exact h
  | respond | selectAbandoned | deselected => exact fun hbusy => absurd rfl hbusy
  | begins hf hp hreq hc => exact fun _ => ⟨hc.op_eq.imp (congrArg some) (congrArg some), burstOf_head _⟩
  | selectOk hf hp | selectReleased hf hp | written hf hp => exact fun _ => h (by simp [hp])

/-- Item 3: an answer is latched as it is recorded, and cleared as the block acts on it. -/
theorem answerLast_of_effect (he : Effect release s m t) (h : AnswerLast s) : AnswerLast t := by
  cases he with
  | stutter | fault | posted => exact h
  | respond hf hp | begins hf hp => exact fun a ha => absurd hp (h a ha).1
  | selectOk | selectReleased | selectAbandoned | written | deselected => exact fun _ ha => nomatch ha
  | answered ho =>
    rintro a ⟨⟩
    exact ⟨((outstanding_iff s).mp ho).1, List.getLast?_concat⟩

/-- Item 4: a call is recorded as its wait phase is entered. -/
theorem issueLast_of_effect (he : Effect release s m t) (h : IssueLast s) : IssueLast t := by
  cases he with
  | stutter | fault | posted => exact h
  | respond | selectAbandoned | deselected => exact fun _ _ hc => nomatch hc
  | begins | selectOk | selectReleased | written =>
    rintro c - ⟨⟩
    exact List.getLast?_concat
  | answered => exact fun _ ha => nomatch ha

/-- Item 5: WR_WAIT is entered as the record becomes ACQUIRED. -/
theorem writeAcquired_of_effect (he : Effect release s m t) (h : WriteAcquired s) : WriteAcquired t := by
  cases he with
  | stutter | fault | posted | answered => exact h
  | selectOk => exact fun _ => rfl
  | respond | begins | selectReleased | selectAbandoned | written | deselected => exact fun hw => nomatch hw

/-- Between calls the issues and the answers are equally many. -/
theorem issueCount_eq_answerCount (h : IssuesAnswered s) (ho : s.outstanding = false) :
    issueCount s.trace = answerCount s.trace := by
  simpa [IssuesAnswered, ho] using h

/-- In IDLE no call is outstanding. -/
theorem outstanding_of_idle (hp : s.phase = .idle) : s.outstanding = false := by
  simp [State.outstanding, hp]

/-- With an answer latched no call is outstanding. -/
theorem outstanding_of_ans {a : Answer E} (ha : s.ans = some a) : s.outstanding = false := by
  simp [State.outstanding, ha]

/-- Item 6: a call issued while none is outstanding becomes the outstanding one, and its answer settles it. -/
theorem issuesAnswered_of_effect (he : Effect release s m t) (hclean : IdleClean s) (h : IssuesAnswered s) :
    IssuesAnswered t := by
  cases he with
  | stutter | fault | posted => exact h
  | respond hf hp =>
    have heq := issueCount_eq_answerCount h (outstanding_of_idle hp)
    exact heq
  | begins hf hp =>
    have heq := issueCount_eq_answerCount h (outstanding_of_idle hp)
    obtain ⟨-, -, -, -, hans, -, -⟩ := hclean hp
    simp [IssuesAnswered, State.outstanding, State.accepted, hans, heq]
  | selectAbandoned hf hp ha | deselected hf hp ha =>
    have heq := issueCount_eq_answerCount h (outstanding_of_ans ha)
    exact heq
  | selectOk hf hp ha | selectReleased hf hp ha | written hf hp ha =>
    have heq := issueCount_eq_answerCount h (outstanding_of_ans ha)
    simp [IssuesAnswered, State.outstanding, State.issue, State.selectFailed, waitPhase, heq]
  | answered ho =>
    have heq : issueCount s.trace = answerCount s.trace + 1 := by simpa [IssuesAnswered, ho] using h
    simp [IssuesAnswered, State.outstanding, heq]

/-! ### The six together -/

/-- Every effect keeps the six invariants. -/
theorem inv_of_effect (he : Effect release s m t) (h : Inv s) : Inv t where
  idleClean := idleClean_of_effect he h.idleClean
  busyLoaded := busyLoaded_of_effect he h.busyLoaded
  answerLast := answerLast_of_effect he h.answerLast
  issueLast := issueLast_of_effect he h.issueLast
  writeAcquired := writeAcquired_of_effect he h.writeAcquired
  issuesAnswered := issuesAnswered_of_effect he h.idleClean h.issuesAnswered

/-- The bookkeeping touches no field they speak of. -/
theorem inv_tick (h : Inv s) : Inv s.tick :=
  ⟨h.idleClean, h.busyLoaded, h.answerLast, h.issueLast, h.writeAcquired, h.issuesAnswered⟩

end

/-- Settles O39: `inv_of_effect` for whichever effect the step has. -/
theorem stateInvariantsKept : Obligations.StateInvariantsKept := by
  unfold Obligations.StateInvariantsKept
  exact fun s t hs h => step_keeps Inv (fun _ => inv_tick) inv_of_effect hs h

end Sys2Proof.Machine
end

section
/-! The transaction in progress and the sessions at the transport interface (10_state.md section 2,
41_bus_transaction.md section 5). -/

namespace Sys2Proof.Machine

open Sys2Proof.Safety

section

variable {E : Type} {release : Bool} {m : Move} {s t : State E}

/-! ### The transaction fields -/

/-- The burst holds the captured operand's frame from its begin to the completion. -/
theorem burstOfOperand_of_effect (he : Effect release s m t) (h : BurstOfOperand s) : BurstOfOperand t := by
  cases he with
  | stutter | fault | posted | answered => exact h
  | respond | selectAbandoned | deselected => exact fun hbusy => absurd rfl hbusy
  | selectOk hf hp | selectReleased hf hp | written hf hp => exact fun _ => h (by simp [hp])
  | begins hf hp hreq hc =>
    cases hc with
    | writeFrame => exact fun _ => .inl ⟨rfl, rfl, rfl⟩
    | sendCommand henc => exact fun _ => .inr ⟨_, rfl, henc, rfl, rfl⟩

/-- No failure is recorded outside DESEL_WAIT, which a failed select or a failed write enters with its own failure alone
(60_exceptions.md R130). -/
theorem oneFailure_of_effect (he : Effect release s m t) (h : OneFailure s) : OneFailure t := by
  obtain ⟨houtside, hone⟩ := h
  cases he with
  | stutter | fault | posted | answered => exact ⟨houtside, hone⟩
  | respond | selectAbandoned | deselected => exact ⟨fun _ => ⟨rfl, rfl⟩, .inl rfl⟩
  | begins hf hp | selectOk hf hp =>
    obtain ⟨hsel, hwr⟩ := houtside (by simp [hp])
    exact ⟨fun _ => ⟨hsel, hwr⟩, .inl hsel⟩
  | selectReleased hf hp =>
    obtain ⟨-, hwr⟩ := houtside (by simp [hp])
    exact ⟨fun hph => absurd rfl hph, .inr hwr⟩
  | written hf hp =>
    obtain ⟨hsel, -⟩ := houtside (by simp [hp])
    exact ⟨fun hph => absurd rfl hph, .inl hsel⟩

/-! ### Sessions -/

/-- The session in progress has grown by the events that the trace has grown by. -/
theorem sessionTrace_extend {new : List (Event E)} (h : SessionTrace release s)
    (hrel : t.phase = .deselWait → t.selFail ≠ none → release = true) (htrace : t.trace = s.trace ++ new)
    (hpending : pendingEvents t = pendingEvents s ++ new) : SessionTrace release t := by
  obtain ⟨-, done, hallowed, heq⟩ := h
  exact ⟨hrel, done, hallowed, by rw [htrace, heq, hpending, List.append_assoc]⟩

/-- In IDLE no session is in progress. -/
theorem pendingEvents_idle (hp : s.phase = .idle) : pendingEvents s = [] := by
  simp [pendingEvents, hp]

/-- The session in progress has become a complete one, and the block is in IDLE. -/
theorem sessionTrace_complete (x : Session E) (h : SessionTrace release s) (hx : sessionAllowed release x = true)
    (hevents : pendingEvents s = sessionEvents x) (htrace : t.trace = s.trace) (hp : t.phase = .idle) :
    SessionTrace release t := by
  obtain ⟨-, done, hallowed, heq⟩ := h
  refine ⟨fun hd => by simp [hp] at hd, done ++ [x], ?allowed, ?trace⟩
  case allowed =>
    intro y hy
    rcases List.mem_append.mp hy with hy | hy
    · exact hallowed y hy
    · exact List.mem_singleton.mp hy ▸ hx
  case trace => rw [htrace, heq, hevents, pendingEvents_idle hp]; simp

/-- An answer to the outstanding call is one more event of the session in progress. -/
theorem pendingEvents_answered (ho : s.outstanding = true) (a : Answer E) (tr : List (Event E)) :
    pendingEvents { s with ans := some a, trace := tr } = pendingEvents s ++ [.answer a] := by
  obtain ⟨hp, hans⟩ := (outstanding_iff s).mp ho
  unfold pendingEvents
  cases hphase : s.phase with
  | idle => exact absurd hphase hp
  | selWait | wrWait => simp [latchedAnswer, hans]
  | deselWait => cases s.selFail <;> simp [latchedAnswer, hans, writeAnswerOf]

/-- As the write's answer is acted on, the record of its failure tells which answer it was. -/
theorem pendingEvents_written {a : Answer E} (hp : s.phase = .wrWait) (ha : s.ans = some a) (hsel : s.selFail = none)
    (hwr : s.wrFail = none) :
    pendingEvents (State.issue .deselect { s with ans := none, wrFail := (answerPayload a).or s.wrFail }) =
      pendingEvents s ++ [.issue .deselect] := by
  cases a with
  | ok | err =>
    simp [pendingEvents, latchedAnswer, writeAnswerOf, answerPayload, State.issue, waitPhase, hp, ha, hsel, hwr]

/-- Each effect extends the session in progress by the event it records, or completes it. -/
theorem sessionTrace_of_effect (he : Effect release s m t) (hclean : IdleClean s) (hone : OneFailure s)
    (h : SessionTrace release s) : SessionTrace release t := by
  obtain ⟨houtside, -⟩ := hone
  have hreleased := h.1
  cases he with
  | stutter | fault | posted => exact h
  | respond hf hp =>
    refine sessionTrace_extend h (fun hd => nomatch hd) (List.append_nil s.trace).symm ?_
    rw [pendingEvents_idle rfl, pendingEvents_idle hp]
    rfl
  | begins hf hp =>
    obtain ⟨-, -, -, -, hans, -, -⟩ := hclean hp
    refine sessionTrace_extend h (fun hd => nomatch hd) rfl ?_
    rw [pendingEvents_idle hp]
    simp [pendingEvents, latchedAnswer, State.accepted, hans]
  | selectOk hf hp ha =>
    refine sessionTrace_extend h (fun hd => nomatch hd) rfl ?_
    simp [pendingEvents, latchedAnswer, State.issue, waitPhase, hp, ha]
  | selectReleased hf hp ha hrel =>
    refine sessionTrace_extend h (fun _ _ => hrel) rfl ?_
    simp [pendingEvents, latchedAnswer, State.issue, State.selectFailed, waitPhase, hp, ha]
  | @selectAbandoned e hf hp ha hrel =>
    exact sessionTrace_complete (.abandoned e) h (by simp [sessionAllowed, hrel])
      (by simp [pendingEvents, latchedAnswer, hp, ha, sessionEvents]) rfl rfl
  | written hf hp ha =>
    obtain ⟨hsel, hwr⟩ := houtside (by simp [hp])
    exact sessionTrace_extend h (fun _ hs => absurd hsel hs) rfl (pendingEvents_written hp ha hsel hwr)
  | @deselected a hf hp ha =>
    cases hsel : s.selFail with
    | none =>
      exact sessionTrace_complete (.full s.wbuf (writeAnswerOf s) a) h rfl
        (by simp [pendingEvents, latchedAnswer, hp, ha, hsel, sessionEvents]) rfl rfl
    | some e =>
      exact sessionTrace_complete (.released e a) h (hreleased hp (by simp [hsel]))
        (by simp [pendingEvents, latchedAnswer, hp, ha, hsel, sessionEvents]) rfl rfl
  | answered ho => exact sessionTrace_extend h hreleased rfl (pendingEvents_answered ho _ _)

end

/-- Settles O40: each effect keeps the burst and the failures. -/
theorem transactionFieldsKept : Obligations.TransactionFieldsKept := by
  unfold Obligations.TransactionFieldsKept
  intro s t hburst hone h
  exact ⟨step_keeps BurstOfOperand (fun _ => id) burstOfOperand_of_effect hburst h,
    step_keeps OneFailure (fun _ => id) oneFailure_of_effect hone h⟩

/-- What the session discipline needs to be kept. -/
def Disciplined (s : State) : Prop :=
  IdleClean s ∧ OneFailure s ∧ SessionTrace Config.releaseOnSelectFail s

/-- Settles O41: each effect keeps the discipline, given the clean IDLE and the single failure. -/
theorem sessionDisciplineKept : Obligations.SessionDisciplineKept := by
  unfold Obligations.SessionDisciplineKept
  intro s t hclean hone hsess h
  refine step_keeps Disciplined (fun _ => id) ?effect ⟨hclean, hone, hsess⟩ h
  rintro s t m he ⟨hclean, hone, hsess⟩
  exact ⟨idleClean_of_effect he hclean, oneFailure_of_effect he hone, sessionTrace_of_effect he hclean hone hsess⟩

/-- Settles O42: at reset IDLE is clean, nothing is recorded, and no session has begun. -/
theorem invariantsHoldAtReset : Obligations.InvariantsHoldAtReset := by
  unfold Obligations.InvariantsHoldAtReset
  refine ⟨⟨?_, ?_, ?_, ?_, ?_, ?_⟩, ?_, ?_, ?_, ?_⟩
  · exact fun _ => ⟨rfl, rfl, rfl, rfl, rfl, rfl, rfl⟩
  · exact fun hbusy => absurd rfl hbusy
  · exact fun _ ha => nomatch ha
  · exact fun _ _ hc => nomatch hc
  · exact fun hw => nomatch hw
  · rfl
  · exact fun hbusy => absurd rfl hbusy
  · exact ⟨fun _ => ⟨rfl, rfl⟩, .inl rfl⟩
  · exact ⟨fun hd => (nomatch hd), [], by simp, rfl⟩
  · exact fun hreq => absurd rfl hreq

end Sys2Proof.Machine
end

section
/-! What each meaning does (40_frame_encoder.md, 41_bus_transaction.md section 1, 60_exceptions.md): its next state in
full, in IDLE, during a transaction, and with the block stopped. -/

namespace Sys2Proof.Machine

open Sys2Proof.Safety

/-! ### ENCODE -/

/-- ENCODE, accepted in IDLE, ends in a response. -/
theorem exec_encode_responds {s : State} (hf : s.fault = .none) (hp : s.phase = .idle) (pd : List Byte) :
    ∃ r, exec (.encode pd) s = .next (State.respond r { s with req := none }) := by
  by_cases h : pd.length ≤ maxPd
  · exact ⟨_, exec_encode_fits hf hp h⟩
  · exact ⟨_, exec_encode_too_long hf hp (Nat.lt_of_not_le h)⟩

/-- Everything ENCODE can do: a response in IDLE, REENTRANT during a transaction. -/
theorem exec_encode_eq_next {pd : List Byte} {s t : State} (h : exec (.encode pd) s = .next t) :
    (s.phase = .idle ∧ ∃ r, t = State.respond r { s with req := none }) ∨
    (s.phase ≠ .idle ∧ t = State.raise .reentrant { s with req := none }) := by
  obtain ⟨hf, ⟨hp, -⟩ | ⟨hp, ht⟩⟩ := acceptStep_eq_next.mp h
  · obtain ⟨r, hr⟩ := exec_encode_responds hf hp pd
    cases hr.symm.trans h
    exact .inl ⟨hp, r, rfl⟩
  · exact .inr ⟨hp, ht⟩

/-- A response driven in IDLE leaves the phase as it is. -/
theorem respond_of_idle {E : Type} (s : State E) (hp : s.phase = .idle) (r : Response E) :
    s.respond r = { s with
      resp := some r, curOp := none, curPd := [], curFrame := none, wbuf := [], selFail := none, wrFail := none } := by
  simp [State.respond, hp]

/-- A response driven in a clean IDLE changes the response alone. -/
theorem respond_of_idleClean {E : Type} (s : State E) (hp : s.phase = .idle) (hclean : IdleClean s) (r : Response E) :
    s.respond r = { s with resp := some r } := by
  obtain ⟨hop, hpd, hframe, hwbuf, -, hsel, hwr⟩ := hclean hp
  simp [State.respond, hp, hop, hpd, hframe, hwbuf, hsel, hwr]

/-- Settles O15: in IDLE ENCODE is `respond`, during a transaction `raise`. -/
theorem encodeFrameConditions : Obligations.EncodeFrameConditions := by
  unfold Obligations.EncodeFrameConditions
  intro pd s t h
  rcases exec_encode_eq_next h with ⟨hp, r, rfl⟩ | ⟨hp, rfl⟩
  · exact ⟨rfl, rfl, hp.symm, rfl, rfl, rfl, fun _ => respond_of_idle { s with req := none } hp r,
      fun _ hclean => respond_of_idleClean { s with req := none } hp hclean r⟩
  · exact ⟨rfl, rfl, rfl, rfl, rfl, rfl, fun hidle => absurd hidle hp, fun hidle => absurd hidle hp⟩

/-! ### The writing requests -/

/-- WRITE_FRAME in IDLE: the capture, then BEGIN of the operand (R103, R104). -/
theorem exec_writeFrame_begins {s : State} (hf : s.fault = .none) (hp : s.phase = .idle) (frame : List Byte) :
    exec (.writeFrame frame) s = .next ((s.accepted .writeFrame frame none).beginBurst frame) :=
  acceptStep_idle hf hp

/-- SEND_COMMAND in IDLE of a PD that encodes: the capture, then BEGIN of the encoded frame (R112). -/
theorem exec_sendCommand_begins {s : State} {pd f : List Byte} (hf : s.fault = .none) (hp : s.phase = .idle)
    (henc : enc pd = .frame f) :
    exec (.sendCommand pd) s = .next ((s.accepted .sendCommand pd (some f)).beginBurst f) := by
  rw [exec_sendCommand, acceptStep_idle hf hp, sendBody, henc]
  rfl

/-- SPI_DATA_WRITE after a capture is BEGIN(frame). -/
theorem exec_spiDataWrite_accepted {s : State} (hf : s.fault = .none) (hp : s.phase = .idle) (op : ReqOp)
    (data frame : List Byte) (frame? : Option (List Byte)) :
    exec (.spiDataWrite frame) (s.accepted op data frame?) = .next ((s.accepted op data frame?).beginBurst frame) := by
  rw [exec_spiDataWrite]
  apply startStep_idle
  · exact hf
  · exact hp

/-- Settles O16: `exec_writeFrame_begins`, with the capture and BEGIN(frame) written out. -/
theorem writeFrameBeginsBurst : Obligations.WriteFrameBeginsBurst := by
  unfold Obligations.WriteFrameBeginsBurst
  exact fun frame s hf hp => exec_writeFrame_begins hf hp frame

/-- Settles O17: the start step in IDLE runs BEGIN(frame). -/
theorem spiDataWriteBeginsBurst : Obligations.SpiDataWriteBeginsBurst := by
  unfold Obligations.SpiDataWriteBeginsBurst
  exact fun frame s hf hp => startStep_idle hf hp

/-- Settles O18: a PD that fits encodes, and its accept step is `exec_sendCommand_fits`. -/
theorem sendCommandBeginsBurst : Obligations.SendCommandBeginsBurst := by
  unfold Obligations.SendCommandBeginsBurst
  exact fun pd s hf hp h => ⟨frameOf pd, enc_fits h, exec_sendCommand_fits hf hp h⟩

/-- Settles O19: the length check of SEND comes before the burst. -/
theorem sendCommandOverflowTouchesNoBus : Obligations.SendCommandOverflowTouchesNoBus := by
  unfold Obligations.SendCommandOverflowTouchesNoBus
  intro pd s hf hp h
  rw [exec_sendCommand, acceptStep_idle hf hp, sendBody_too_long h]
  exact congrArg Host.Outcome.next
    (respond_of_idle (State.capture .sendCommand pd { s with req := none }) hp (overflowResponse pd.length))

/-- Settles O22: BEGIN(frame) is what both requests run after their capture. -/
theorem writesEndInDataWriteMarker : Obligations.WritesEndInDataWriteMarker := by
  unfold Obligations.WritesEndInDataWriteMarker
  intro s data f hf hp
  constructor
  · rw [exec_writeFrame_begins hf hp]
    exact (exec_spiDataWrite_accepted hf hp .writeFrame data data none).symm
  · intro henc
    rw [exec_sendCommand_begins hf hp henc]
    exact (exec_spiDataWrite_accepted hf hp .sendCommand data f (some f)).symm

/-! ### The sticky faults -/

/-- Settles O20: the accept step in IDLE runs `raise`. -/
theorem reservedOpSetsFault : Obligations.ReservedOpSetsFault := by
  unfold Obligations.ReservedOpSetsFault
  exact fun data s hf hp => acceptStep_idle hf hp

/-- Settles O23: every request's meaning is an accept step, which faults before its body is reached. -/
theorem busyRequestFaultsReentrant : Obligations.BusyRequestFaultsReentrant := by
  unfold Obligations.BusyRequestFaultsReentrant
  intro i s hi hf hp
  obtain ⟨r, hr⟩ := Option.ne_none_iff_exists'.mp hi
  rw [exec_of_toRequest hr]
  exact acceptStep_busy hf hp

/-- Settles O24: the start step faults before BEGIN(frame) is reached. -/
theorem busyDataWriteFaultsReentrant : Obligations.BusyDataWriteFaultsReentrant := by
  unfold Obligations.BusyDataWriteFaultsReentrant
  exact fun frame s hf hp => startStep_busy hf hp

/-- A start step of a block without a fault has a next state. -/
theorem startStep_has_next {E : Type} (s : State E) (hf : s.fault = .none) (body : State E → State E) :
    ∃ t, startStep body s = .next t := by
  by_cases hp : s.phase = .idle
  · exact ⟨_, startStep_idle hf hp⟩
  · exact ⟨_, startStep_busy hf hp⟩

/-- Settles O25: every meaning is an accept step or a start step, and these stop on a fault already set and then only. -/
theorem meaningsStopOnlyWhenBlockStopped : Obligations.MeaningsStopOnlyWhenBlockStopped := by
  unfold Obligations.MeaningsStopOnlyWhenBlockStopped
  intro i s
  rcases exec_cases i with ⟨r, h⟩ | ⟨frame, h⟩ <;> rw [h]
  · exact ⟨fun hf => acceptStep_stopped hf, fun hf => startStep_has_next { s with req := none } hf _⟩
  · exact ⟨fun hf => startStep_stopped hf, fun hf => startStep_has_next s hf _⟩

end Sys2Proof.Machine
end

section
/-! What one step is at each turn (41_bus_transaction.md sections 1 and 2, 70_reset_and_hazards.md section 2). -/

namespace Sys2Proof.Machine

/-! ### Accepting -/

/-- With a request latched and no fault, the accept move is the meaning of the decoded request. -/
theorem perform_accept {s : State} {r : Request} (hf : s.fault = .none) (hreq : s.req = some r) (release : Bool) :
    perform release .accept s = exec (decodeRequest r) s := by
  have hfetch : s.fetch = some (decodeRequest r) := fetch_eq_some.mpr ⟨hf, r, hreq, rfl⟩
  simp only [perform, hfetch]

/-- With a fault or an empty latch there is nothing to accept. -/
theorem perform_accept_disabled {s : State} (h : s.fault ≠ .none ∨ s.req = none) (release : Bool) :
    perform release .accept s = .next s := by
  have hfetch : s.fetch = none := by
    rcases h with h | h <;> simp [State.fetch, h]
  simp only [perform, hfetch]

/-- A request latched in IDLE is accepted. -/
theorem perform_accept_idle {s : State} {r : Request} (hf : s.fault = .none) (hreq : s.req = some r)
    (hp : s.phase = .idle) (release : Bool) :
    perform release .accept s = .next (requestBody r { s with req := none }) := by
  rw [perform_accept hf hreq, exec_decodeRequest]
  exact acceptStep_idle hf hp

/-- A request latched during a transaction faults REENTRANT. -/
theorem perform_accept_busy {s : State} {r : Request} (hf : s.fault = .none) (hreq : s.req = some r)
    (hp : s.phase ≠ .idle) (release : Bool) :
    perform release .accept s = .next (State.raise .reentrant { s with req := none }) := by
  rw [perform_accept hf hreq, exec_decodeRequest]
  exact acceptStep_busy hf hp

/-- At the block's turn to accept, a step is the accept move and the bookkeeping. -/
theorem step_accept {s : State} (ht : s.turn = .accept) :
    step s = tickAfter (perform Config.releaseOnSelectFail .accept s) := by
  rw [step_eq, action_eq_accept.mpr ht]

/-- At its turn to accept, the block runs the decoded request. -/
theorem step_runs_request {s : State} {r : Request} (ht : s.turn = .accept) (hf : s.fault = .none)
    (hreq : s.req = some r) : step s = tickAfter (exec (decodeRequest r) s) := by
  rw [step_accept ht, perform_accept hf hreq]

/-- Settles O35: `step_runs_request`; bytes that decode are the request's op byte and data. -/
theorem stepRunsDecodedRequest : Obligations.StepRunsDecodedRequest := by
  unfold Obligations.StepRunsDecodedRequest
  refine ⟨fun s r ht hf hreq => step_runs_request ht hf hreq, fun s b data i ht hf hreq hdec => ?bytes, fun _ => rfl⟩
  case bytes =>
    cases hdec
    exact step_runs_request ht hf hreq

/-- Settles O36: the word's request is in the latch, and decodes to the word's instruction. -/
theorem fetchWordRunsNext : Obligations.FetchWordRunsNext := by
  unfold Obligations.FetchWordRunsNext
  intro s nbits w i hf hdec
  rw [← decodeRequest_requestOfTableWord hdec]
  exact step_runs_request rfl hf rfl

/-! ### The other turns -/

/-- At the block's turn to act, a step acts on the answer. -/
theorem step_act {s : State} (ht : s.turn = .act) : step s = .next (s.act Config.releaseOnSelectFail).tick := by
  rw [step_eq, action_eq_act.mpr ht]
  rfl

/-- At the transport's turn, a step answers. -/
theorem step_answer {s : State} (ht : s.turn = .answer) :
    step s = .next (s.answer (Config.transportAnswer s.draws)).tick := by
  rw [step_eq, State.action, ht]
  rfl

/-- At the host's turn, a step writes the latch. -/
theorem step_post {s : State} (ht : s.turn = .post) :
    step s = .next (s.post (Config.hostRequest s.draws)).tick := by
  rw [step_eq, State.action, ht]
  rfl

/-- With a fault set, in IDLE or without an answer the block has no step on one (log entry 17). -/
theorem canAct_eq_false {E : Type} {s : State E} (h : s.fault ≠ .none ∨ s.phase = .idle ∨ s.ans = none) :
    s.canAct = false := by
  rcases h with h | h | h <;> simp [State.canAct, h]

/-- Settles O37: each turn's step, with the move enabled and not enabled. -/
theorem stepOtherMoves : Obligations.StepOtherMoves := by
  unfold Obligations.StepOtherMoves
  intro s
  refine ⟨fun ht h => ?_, step_act, fun ht h => ⟨?_, ?_⟩, fun ht ho => ?_, fun ht ho => ?_, fun ht hreq => ?_,
    fun ht hreq => ?_⟩
  · rw [step_accept ht, perform_accept_disabled h]
    rfl
  · exact act_disabled (canAct_eq_false h) _
  · rw [step_act ht, act_disabled (canAct_eq_false h)]
  · rw [step_answer ht, answer_outstanding ho]
  · rw [step_answer ht, answer_none ho]
  · rw [step_post ht, post_empty hreq]
  · rw [step_post ht, post_full hreq]

/-- Settles O38: every move has a next state, and the bookkeeping follows it. -/
theorem stepAlwaysHasNext : Obligations.StepAlwaysHasNext := by
  unfold Obligations.StepAlwaysHasNext
  intro s
  obtain ⟨u, hu⟩ := perform_has_next Config.releaseOnSelectFail s.action s
  exact ⟨u.tick, step_eq_next.mpr ⟨u, hu, rfl⟩⟩

/-- Settles O46: the accept step outside IDLE and of op 11, and the two moves of a stopped block. -/
theorem modelFaultsStopTheBlock : Obligations.ModelFaultsStopTheBlock := by
  unfold Obligations.ModelFaultsStopTheBlock
  intro release s
  refine ⟨fun r hf hreq hp => perform_accept_busy hf hreq hp release,
    fun data hf hreq hp => perform_accept_idle hf hreq hp release,
    fun hf => ⟨perform_accept_disabled (.inl hf) release, ?stopped⟩⟩
  case stopped => exact congrArg Host.Outcome.next (act_disabled (canAct_eq_false (.inl hf)) release)

/-- Settles O55: the host's write to an empty and to a full latch. -/
theorem hostWritesOnlyEmptyLatch : Obligations.HostWritesOnlyEmptyLatch := by
  unfold Obligations.HostWritesOnlyEmptyLatch
  intro release r s
  exact ⟨fun hreq => congrArg Host.Outcome.next (post_empty hreq r),
    fun r' hreq => congrArg Host.Outcome.next (post_full (by simp [hreq]) r)⟩

end Sys2Proof.Machine
end

section
/-! The whole-machine rules (10_state.md sections 2 to 4, 41_bus_transaction.md section 3, 60_exceptions.md section 1):
what one step may do to the response, the sticky fault, the bus record, the phase and the trace, effect by effect. -/

namespace Sys2Proof.Machine

open Sys2Proof.Safety

/-! ### Responses -/

/-- The encoder's responses are well-formed. -/
theorem EncoderResponse.wellFormed {E : Type} {r : Response E} (h : EncoderResponse r) : r.wellFormed = true := by
  obtain ⟨f, rfl⟩ | ⟨n, rfl⟩ := h
  · rfl
  · rfl

/-- FINISH's response is well-formed, whichever of the three calls failed. -/
theorem finishResponse_wellFormed {E : Type} (d : Option (Answer E)) (s : State E) :
    (finishResponse d s).wellFormed = true := by
  unfold finishResponse
  cases s.selFail with
  | some e => cases d.bind answerPayload <;> simp [Response.wellFormed, firstFailure]
  | none =>
    cases s.wrFail with
    | some e => cases d.bind answerPayload <;> simp [Response.wellFormed, firstFailure]
    | none => cases d.bind answerPayload <;> simp [Response.wellFormed, firstFailure]

/-- The status byte of a well-formed response is one the block may produce (10_state.md R32). -/
theorem statusByteWellFormed_of_wellFormed {E : Type} {r : Response E} (h : r.wellFormed = true) :
    statusByteWellFormed (statusByte r) = true := by
  simp only [Response.wellFormed, Bool.and_eq_true, Bool.or_eq_true, beq_iff_eq, decide_eq_true_eq] at h
  obtain ⟨⟨⟨⟨⟨hstage, hrelease⟩, -⟩, -⟩, -⟩, -⟩ := h
  refine packStatus_wellFormed ?stage ?release
  case stage => simpa using Bool.eq_iff_iff.mp hstage
  case release =>
    intro hrf
    simpa [hrf] using hrelease

/-- A state whose response, if any, is well-formed. -/
def RespWellFormed {E : Type} (s : State E) : Prop := ∀ r, s.resp = some r → r.wellFormed = true

/-- Only the encoder and FINISH drive responses. -/
theorem respWellFormed_of_effect {E : Type} {release : Bool} {m : Move} {s t : State E} (he : Effect release s m t)
    (h : RespWellFormed s) : RespWellFormed t := by
  cases he with
  | stutter | fault | begins | selectOk | selectReleased | written | answered | posted => exact h
  | respond hf hp hreq hr =>
    rintro _ ⟨⟩
    exact hr.wellFormed
  | selectAbandoned | deselected =>
    rintro _ ⟨⟩
    exact finishResponse_wellFormed _ _

/-- Settles O43: `respWellFormed_of_effect`, and a well-formed response packs well. -/
theorem responsesStayWellFormed : Obligations.ResponsesStayWellFormed := by
  unfold Obligations.ResponsesStayWellFormed
  intro s t hs h r hr
  have ht : RespWellFormed t := step_keeps RespWellFormed (fun _ => id) respWellFormed_of_effect hs h
  exact ⟨ht r hr, statusByteWellFormed_of_wellFormed (ht r hr)⟩

/-- Each field of the packing, for every status, stage and flag (10_state.md R32). -/
theorem packStatus_fields (st : Status) (sg : Stage) (rf : Bool) :
    (packStatus st sg rf).extractLsb' 0 2 = statusCode st ∧ (packStatus st sg rf).extractLsb' 2 2 = stageCode sg ∧
      (packStatus st sg rf).getLsbD 4 = rf ∧ (packStatus st sg rf).extractLsb' 5 3 = 0 := by
  cases st <;> cases sg <;> cases rf <;> decide

/-- Settles O44: `packStatus_fields`, with the codes of the table, and `readStatusByte_pack`. -/
theorem statusBytePacking : Obligations.StatusBytePacking := by
  unfold Obligations.StatusBytePacking
  intro E r
  obtain ⟨hstatus, hstage, hrelease, hreserved⟩ := packStatus_fields r.status r.stage r.releaseFailed
  refine ⟨hstatus.trans ?statusCode, hstage.trans ?stageCode, hrelease, hreserved, readStatusByte_pack _ _ _⟩
  case statusCode => cases r.status <;> rfl
  case stageCode => cases r.stage <;> rfl

/-! ### The sticky faults -/

/-- Settles O45: outside IDLE nothing is latched, so nothing is accepted there; and the host writes in IDLE only. -/
theorem sequentialHostNeverReentrant : Obligations.SequentialHostNeverReentrant := by
  unfold Obligations.SequentialHostNeverReentrant
  intro s t hhost hlatch h
  obtain ⟨u, hu, rfl⟩ := effect_of_step h
  generalize hm : s.turn = m at hu
  cases hu with
  | stutter | answered => exact ⟨hlatch, id⟩
  | respond hf | begins hf => exact ⟨fun hreq => absurd rfl hreq, id⟩
  | selectAbandoned | deselected => exact ⟨fun _ => rfl, id⟩
  | fault hf hreq hwhy =>
    rcases hwhy with ⟨-, rfl⟩ | ⟨hbusy, -⟩
    · exact ⟨fun hreq => absurd rfl hreq, fun hre => nomatch hre⟩
    · exact absurd (hlatch hreq) hbusy
  | selectOk hf hp | selectReleased hf hp | written hf hp =>
    exact ⟨fun hreq => absurd (hlatch hreq) (by simp [hp]), id⟩
  | posted hreq =>
    obtain ⟨hp, -⟩ := hhost hm hreq
    exact ⟨fun _ => hp, id⟩

/-- Settles O47: the effects of a block step need a block without a fault, which leaves the transport's answer and the
host's write to an empty latch. -/
theorem faultedStateKeepsEffects : Obligations.FaultedStateKeepsEffects := by
  unfold Obligations.FaultedStateKeepsEffects
  intro s t hstop h
  obtain ⟨u, hu, rfl⟩ := effect_of_step h
  generalize s.turn = m at hu
  cases hu with
  | stutter =>
    exact ⟨rfl, rfl, rfl, rfl, rfl, rfl, rfl, rfl, rfl, rfl, fun _ => id, fun _ => id, .inl rfl⟩
  | respond hf | fault hf | begins hf | selectOk hf | selectReleased hf | selectAbandoned hf | written hf
  | deselected hf => exact absurd hf hstop
  | @answered a ho =>
    obtain ⟨-, hnone⟩ := (outstanding_iff s).mp ho
    exact ⟨rfl, rfl, rfl, rfl, rfl, rfl, rfl, rfl, rfl, rfl, fun _ => id, fun a' ha' => by simp [hnone] at ha',
      .inr ⟨a, ho, rfl, rfl⟩⟩
  | posted hreq =>
    exact ⟨rfl, rfl, rfl, rfl, rfl, rfl, rfl, rfl, rfl, rfl, fun r hr => by simp [hreq] at hr, fun _ => id, .inl rfl⟩

/-! ### The bus record, the phase, the trace and the response -/

/-- Settles O48: a select's or a deselect's answer writes the record, and no other effect does. -/
theorem busWrittenOnlyByAnswers : Obligations.BusWrittenOnlyByAnswers := by
  unfold Obligations.BusWrittenOnlyByAnswers
  intro s t h
  obtain ⟨u, hu, rfl⟩ := effect_of_step h
  generalize hm : s.turn = m at hu
  cases hu with
  | stutter | respond | fault | begins | written | answered | posted => exact .inl rfl
  | selectOk hf hp ha => exact .inr ⟨_, rfl, hf, ha, .inl ⟨hp, rfl, rfl⟩⟩
  | selectReleased hf hp ha | selectAbandoned hf hp ha =>
    exact .inr ⟨_, rfl, hf, ha, .inr (.inl ⟨hp, by simp, rfl⟩)⟩
  | @deselected a hf hp ha =>
    refine .inr ⟨a, rfl, hf, ha, ?_⟩
    cases a with
    | ok => exact .inr (.inr (.inl ⟨hp, rfl, rfl⟩))
    | err e => exact .inr (.inr (.inr ⟨hp, by simp, rfl⟩))

/-- Settles O49: the effects that change the phase are the sequencer's transitions. -/
theorem phaseFollowsSequencer : Obligations.PhaseFollowsSequencer := by
  unfold Obligations.PhaseFollowsSequencer
  intro s t h hne
  obtain ⟨u, hu, rfl⟩ := effect_of_step h
  generalize hm : s.turn = m at hu
  cases hu with
  | stutter | fault | answered | posted => exact absurd rfl hne
  | respond hf hp => exact absurd hp.symm hne
  | begins hf hp => exact .inl ⟨hp, rfl, rfl⟩
  | selectOk hf hp ha => exact .inr (.inl ⟨hp, rfl, ha⟩)
  | selectReleased hf hp ha hrel => exact .inr (.inr (.inl ⟨hp, ⟨_, ha⟩, by rw [hrel]; rfl⟩))
  | selectAbandoned hf hp ha hrel => exact .inr (.inr (.inl ⟨hp, ⟨_, ha⟩, by rw [hrel]; rfl⟩))
  | written hf hp ha => exact .inr (.inr (.inr (.inl ⟨hp, rfl, by simp [ha]⟩)))
  | deselected hf hp ha => exact .inr (.inr (.inr (.inr ⟨hp, rfl, by simp [ha]⟩)))

/-- Settles O50: a block step appends the call it issues, the transport its answer. -/
theorem traceOnlyGrows : Obligations.TraceOnlyGrows := by
  unfold Obligations.TraceOnlyGrows
  intro s t h
  obtain ⟨u, hu, rfl⟩ := effect_of_step h
  generalize hm : s.turn = m at hu
  cases hu with
  | stutter | respond | fault | selectAbandoned | deselected | posted => exact .inl rfl
  | begins hf => exact .inr (.inl ⟨_, .inl rfl, hf, rfl⟩)
  | selectOk hf | selectReleased hf | written hf => exact .inr (.inl ⟨_, .inr rfl, hf, rfl⟩)
  | answered ho => exact .inr (.inr ⟨_, rfl, ho, rfl, rfl⟩)

/-- Settles O51: the effects that drive a response are the encoder's and the two that end in FINISH. -/
theorem responseDrivenAtCompletion : Obligations.ResponseDrivenAtCompletion := by
  unfold Obligations.ResponseDrivenAtCompletion
  intro s t h hne
  obtain ⟨u, hu, rfl⟩ := effect_of_step h
  generalize hm : s.turn = m at hu
  cases hu with
  | stutter | fault | begins | selectOk | selectReleased | written | answered | posted => exact absurd rfl hne
  | respond hf hp hreq => exact ⟨hf, rfl, hf, .inl ⟨rfl, hp, hreq⟩⟩
  | selectAbandoned hf hp ha hrel => exact ⟨hf, rfl, hf, .inr (.inr ⟨rfl, hp, hrel, _, ha⟩)⟩
  | deselected hf hp ha => exact ⟨hf, rfl, hf, .inr (.inl ⟨rfl, hp, _, ha⟩)⟩

end Sys2Proof.Machine
end

section
/-! Whole sessions (41_bus_transaction.md section 5, its rule 119): a call answered and acted on in each wait phase, and
the outcome table. -/

namespace Sys2Proof.Machine

open Sys2Proof.Safety

/-! ### An answer and the block's step on it, in each wait phase -/

/-- A call is outstanding in the wait phase `p`, and there is no fault. -/
structure Waiting {E : Type} (p : Phase) (s : State E) : Prop where
  fault : s.fault = .none
  phase : s.phase = p
  busy  : p ≠ .idle
  ans   : s.ans = none

section

variable {E : Type} {p : Phase} {s : State E}

/-- After `ok` to the select and the block's step on it. -/
def State.selectedOk (s : State E) : State E :=
  { s with bus := .acquired, trace := s.trace ++ [.answer .ok, .issue (.write s.wbuf)], phase := .wrWait }

/-- After `err e` to the select and the block's step on it, if it releases. -/
def State.releasing (e : E) (s : State E) : State E :=
  { s with
    bus := .indeterminate, selFail := some e, trace := s.trace ++ [.answer (.err e), .issue .deselect]
    phase := .deselWait }

/-- After the write's answer and the block's step on it. -/
def State.writeDone (a : Answer E) (s : State E) : State E :=
  { s with
    wrFail := (answerPayload a).or s.wrFail, trace := s.trace ++ [.answer a, .issue .deselect], phase := .deselWait }

/-- After the deselect's answer, as FINISH is reached. -/
def State.deselectDone (a : Answer E) (s : State E) : State E :=
  { s with bus := releasedBus a, trace := s.trace ++ [.answer a] }

/-- After `err e` to the select, as FINISH is reached if it does not release. -/
def State.abandoning (e : E) (s : State E) : State E :=
  { s with bus := .indeterminate, selFail := some e, trace := s.trace ++ [.answer (.err e)] }

theorem Waiting.selectedOk (h : Waiting .selWait s) : Waiting .wrWait s.selectedOk :=
  ⟨h.fault, rfl, by simp, h.ans⟩
theorem Waiting.releasing (h : Waiting .selWait s) (e : E) : Waiting .deselWait (s.releasing e) :=
  ⟨h.fault, rfl, by simp, h.ans⟩
theorem Waiting.writeDone (h : Waiting .wrWait s) (a : Answer E) : Waiting .deselWait (s.writeDone a) :=
  ⟨h.fault, rfl, by simp, h.ans⟩

/-- The outstanding call is answered. -/
theorem Waiting.answer_eq (h : Waiting p s) (a : Answer E) :
    s.answer a = { s with ans := some a, trace := s.trace ++ [.answer a] } :=
  answer_outstanding ((outstanding_iff s).mpr ⟨h.phase ▸ h.busy, h.ans⟩) a

/-- Its answer stands in the latch. -/
theorem Waiting.answer_ans (h : Waiting p s) (a : Answer E) : (s.answer a).ans = some a := by
  rw [h.answer_eq]

/-- The fault and the phase are as before the answer. -/
theorem Waiting.answer_fault (h : Waiting p s) (a : Answer E) : (s.answer a).fault = .none := by
  rw [State.answer_fault, h.fault]
theorem Waiting.answer_phase (h : Waiting p s) (a : Answer E) : (s.answer a).phase = p := by
  rw [State.answer_phase, h.phase]

/-- The select is answered `ok`: the burst is written. -/
theorem Waiting.act_answer_ok (h : Waiting .selWait s) (release : Bool) :
    (s.answer .ok).act release = s.selectedOk := by
  rw [act_selWait (h.answer_fault _) (h.answer_phase _) (h.answer_ans _), h.answer_eq]
  simp [selAnswered, State.issue, waitPhase, State.selectedOk, h.ans]

/-- The select fails and is released. -/
theorem Waiting.act_answer_released (h : Waiting .selWait s) (e : E) :
    (s.answer (.err e)).act true = s.releasing e := by
  rw [act_selWait (h.answer_fault _) (h.answer_phase _) (h.answer_ans _), h.answer_eq]
  simp [selAnswered, State.issue, waitPhase, State.releasing, h.ans]

/-- The select fails and is not released: FINISH(none). -/
theorem Waiting.act_answer_abandoned (h : Waiting .selWait s) (e : E) :
    (s.answer (.err e)).act false = (s.abandoning e).finish none := by
  rw [act_selWait (h.answer_fault _) (h.answer_phase _) (h.answer_ans _), h.answer_eq]
  simp [selAnswered, State.abandoning, h.ans]

/-- The write is answered: the deselect is issued. -/
theorem Waiting.act_answer_write (h : Waiting .wrWait s) (a : Answer E) (release : Bool) :
    (s.answer a).act release = s.writeDone a := by
  rw [act_wrWait (h.answer_fault _) (h.answer_phase _) (h.answer_ans _), h.answer_eq, writeAnswered_eq]
  simp [State.issue, waitPhase, State.writeDone, h.ans]

/-- The deselect is answered: FINISH. -/
theorem Waiting.act_answer_deselect (h : Waiting .deselWait s) (a : Answer E) (release : Bool) :
    (s.answer a).act release = (s.deselectDone a).finish (some a) := by
  rw [act_deselWait (h.answer_fault _) (h.answer_phase _) (h.answer_ans _), h.answer_eq, deselAnswered_eq]
  simp [State.deselectDone, h.ans]

end

/-! ### The responses of the outcome table -/

section

variable {E : Type} {s : State E}

/-- The response once the select has been answered `ok`, by the answers to the write and the deselect. -/
def writtenResponse (frame? : Option (List Byte)) : Answer E → Answer E → Response E
  | .ok, .ok => ⟨.ok, .none, false, none, none, frame?, none⟩
  | .ok, .err e3 => ⟨.transportError, .deselect, false, some e3, none, frame?, none⟩
  | .err e2, .ok => ⟨.transportError, .write, false, some e2, none, frame?, none⟩
  | .err e2, .err e3 => ⟨.transportError, .write, true, some e2, some e3, frame?, none⟩

/-- The response after a failed select that was released, by the deselect's answer. -/
def releasedResponse (frame? : Option (List Byte)) (e1 : E) : Answer E → Response E
  | .ok => ⟨.transportError, .select, false, some e1, none, frame?, none⟩
  | .err e3 => ⟨.transportError, .select, true, some e1, some e3, frame?, none⟩

/-- The response after a failed select that was not released. -/
def abandonedResponse (frame? : Option (List Byte)) (e1 : E) : Response E :=
  ⟨.transportError, .select, false, some e1, none, frame?, none⟩

/-- FINISH reports the write and the deselect. -/
theorem finishResponse_written (w d : Answer E) (hsel : s.selFail = none) (hwr : s.wrFail = answerPayload w) :
    finishResponse (some d) s = writtenResponse s.curFrame w d := by
  cases w <;> cases d <;> simp [finishResponse, firstFailure, answerPayload, writtenResponse, hsel, hwr]

/-- FINISH reports the failed select and the release. -/
theorem finishResponse_released (e1 : E) (d : Answer E) (hsel : s.selFail = some e1) :
    finishResponse (some d) s = releasedResponse s.curFrame e1 d := by
  cases d <;> simp [finishResponse, firstFailure, answerPayload, releasedResponse, hsel]

/-- FINISH reports the failed select alone. -/
theorem finishResponse_abandoned (e1 : E) (hsel : s.selFail = some e1) :
    finishResponse none s = abandonedResponse s.curFrame e1 := by
  simp [finishResponse, firstFailure, abandonedResponse, hsel]

end

/-! ### A session from its latched request to its response -/

/-- The latched request is a writing request that begins its burst from a clean IDLE. -/
structure Begins (s : State) (op : ReqOp) (data : List Byte) (frame? : Option (List Byte)) (frame : List Byte) :
    Prop where
  fault  : s.fault = .none
  phase  : s.phase = .idle
  clean  : IdleClean s
  accept : ∀ release, perform release .accept s = .next ((s.accepted op data frame?).beginBurst frame)

/-- An answer and the block's step on it, as moves. -/
theorem performAll_answer_act (release : Bool) (a : Answer TErr) (as : List (Action TErr)) (s : State) :
    performAll release (.answer a :: .act :: as) s = performAll release as ((s.answer a).act release) := rfl

section

variable {s : State} {op : ReqOp} {data frame : List Byte} {frame? : Option (List Byte)}

/-- Once the request is accepted, the select is outstanding. -/
theorem Begins.waiting (h : Begins s op data frame? frame) :
    Waiting .selWait ((s.accepted op data frame?).beginBurst frame) := by
  obtain ⟨-, -, -, -, hans, -, -⟩ := h.clean h.phase
  exact ⟨h.fault, rfl, by simp, hans⟩

/-- The moves after the acceptance run from the state it leads to. -/
theorem Begins.performAll_accept (h : Begins s op data frame? frame) (release : Bool) (as : List (Action TErr)) :
    performAll release (.accept :: as) s = performAll release as ((s.accepted op data frame?).beginBurst frame) := by
  rw [performAll, h.accept]

/-- What the calls of a session from `s` leave as the acceptance left it, until FINISH is reached in `u`. -/
def KeptUntilFinish (s u : State) : Prop :=
  u.req = none ∧ u.ans = s.ans ∧ u.fault = s.fault ∧ u.turn = s.turn ∧ u.draws = s.draws

/-- FINISH after the session's calls leaves the clean IDLE it began in, with the response, the bus record and the trace
written. -/
theorem Begins.finish_eq (h : Begins s op data frame? frame) {d : Option (Answer TErr)} {u : State}
    {r : Response TErr} (hr : finishResponse d u = r) (hkept : KeptUntilFinish s u) :
    u.finish d = { s with req := none, bus := u.bus, trace := u.trace, resp := some r } := by
  obtain ⟨hop, hpd, hframe, hwbuf, -, hselFail, hwrFail⟩ := h.clean h.phase
  obtain ⟨hreq, hans, hfault, hturn, hdraws⟩ := hkept
  simp [State.finish, State.respond, hr, h.phase, hop, hpd, hframe, hwbuf, hselFail, hwrFail, hreq, hans, hfault, hturn,
    hdraws]

/-- The four rows in which the select is answered `ok`. -/
theorem Begins.performAll_written (h : Begins s op data frame? frame) (release : Bool) (w d : Answer TErr) :
    performAll release [.accept, .answer .ok, .act, .answer w, .act, .answer d, .act] s = .next
      { s with
        req := none, bus := releasedBus d
        trace := s.trace ++ [.issue .select, .answer .ok, .issue (.write (burstOf frame)), .answer w, .issue .deselect,
          .answer d]
        resp := some (writtenResponse frame? w d) } := by
  have hsel := h.waiting
  have hwr := hsel.selectedOk
  have hdesel := hwr.writeDone w
  rw [h.performAll_accept, performAll_answer_act, hsel.act_answer_ok, performAll_answer_act, hwr.act_answer_write,
    performAll_answer_act, hdesel.act_answer_deselect, performAll]
  obtain ⟨-, -, -, -, -, hselFail, hwrFail⟩ := h.clean h.phase
  refine congrArg Host.Outcome.next
    ((h.finish_eq (finishResponse_written w d ?selFail ?wrFail) ?kept).trans ?session)
  case kept => exact ⟨rfl, rfl, rfl, rfl, rfl⟩
  case selFail => exact hselFail
  case wrFail => simp [State.deselectDone, State.writeDone, State.selectedOk, State.accepted, hwrFail]
  case session => simp [State.deselectDone, State.writeDone, State.selectedOk, State.accepted]

/-- The two rows in which a failed select is released. -/
theorem Begins.performAll_released (h : Begins s op data frame? frame) (e1 : TErr) (d : Answer TErr) :
    performAll true [.accept, .answer (.err e1), .act, .answer d, .act] s = .next
      { s with
        req := none, bus := releasedBus d
        trace := s.trace ++ [.issue .select, .answer (.err e1), .issue .deselect, .answer d]
        resp := some (releasedResponse frame? e1 d) } := by
  have hsel := h.waiting
  have hdesel := hsel.releasing e1
  rw [h.performAll_accept, performAll_answer_act, hsel.act_answer_released, performAll_answer_act,
    hdesel.act_answer_deselect, performAll]
  refine congrArg Host.Outcome.next
    ((h.finish_eq (finishResponse_released e1 d ?selFail) ?kept).trans ?session)
  case kept => exact ⟨rfl, rfl, rfl, rfl, rfl⟩
  case selFail => rfl
  case session => simp [State.deselectDone, State.releasing, State.accepted]

/-- The row in which a failed select is not released. -/
theorem Begins.performAll_abandoned (h : Begins s op data frame? frame) (e1 : TErr) :
    performAll false [.accept, .answer (.err e1), .act] s = .next
      { s with
        req := none, bus := .indeterminate
        trace := s.trace ++ [.issue .select, .answer (.err e1)]
        resp := some (abandonedResponse frame? e1) } := by
  have hsel := h.waiting
  rw [h.performAll_accept, performAll_answer_act, hsel.act_answer_abandoned, performAll]
  refine congrArg Host.Outcome.next
    ((h.finish_eq (finishResponse_abandoned e1 ?selFail) ?kept).trans ?session)
  case kept => exact ⟨rfl, rfl, rfl, rfl, rfl⟩
  case selFail => rfl
  case session => simp [State.abandoning, State.accepted]

end

/-- The accept move of a latched WRITE_FRAME in IDLE. -/
theorem perform_writeFrame {s : State} {frame : List Byte} (hf : s.fault = .none) (hp : s.phase = .idle)
    (hreq : s.req = some ⟨1, frame⟩) (release : Bool) :
    perform release .accept s = .next ((s.accepted .writeFrame frame none).beginBurst frame) :=
  (perform_accept hf hreq release).trans (exec_writeFrame_begins hf hp frame)

/-- A latched WRITE_FRAME begins its operand's burst. -/
theorem begins_writeFrame {s : State} {frame : List Byte} (hf : s.fault = .none) (hp : s.phase = .idle)
    (hclean : IdleClean s) (hreq : s.req = some ⟨1, frame⟩) : Begins s .writeFrame frame none frame :=
  ⟨hf, hp, hclean, perform_writeFrame hf hp hreq⟩

/-- A latched SEND_COMMAND whose PD encodes begins the encoded frame's burst. -/
theorem begins_sendCommand {s : State} {pd f : List Byte} (hf : s.fault = .none) (hp : s.phase = .idle)
    (hclean : IdleClean s) (hreq : s.req = some ⟨2, pd⟩) (henc : enc pd = .frame f) :
    Begins s .sendCommand pd (some f) f :=
  ⟨hf, hp, hclean, fun release => (perform_accept hf hreq release).trans (exec_sendCommand_begins hf hp henc)⟩

/-- Settles O31: the rows of the table for a request that keeps no encoded frame. -/
theorem writeFrameOutcomeTable : Obligations.WriteFrameOutcomeTable := by
  unfold Obligations.WriteFrameOutcomeTable
  intro s frame hf hp hclean hreq
  have h := begins_writeFrame hf hp hclean hreq
  refine ⟨fun release w d => (h.performAll_written release w d).trans ?written,
    fun e1 d => (h.performAll_released e1 d).trans ?released, h.performAll_abandoned⟩
  case written => cases w <;> cases d <;> rfl
  case released => cases d <;> rfl

/-- Settles O32: the same rows for a request that keeps its encoded frame. -/
theorem sendCommandOutcomeTable : Obligations.SendCommandOutcomeTable := by
  unfold Obligations.SendCommandOutcomeTable
  intro s pd f hf hp hclean hreq henc
  have h := begins_sendCommand hf hp hclean hreq henc
  refine ⟨fun release w d => (h.performAll_written release w d).trans ?written,
    fun e1 d => (h.performAll_released e1 d).trans ?released, h.performAll_abandoned⟩
  case written => cases w <;> cases d <;> rfl
  case released => cases d <;> rfl

end Sys2Proof.Machine
end

section
/-! The order of moves (41_bus_transaction.md section 1, 70_reset_and_hazards.md sections 2 and 3): both orders of a
request and an answer, and the completion of a session after three answers. -/

namespace Sys2Proof.Machine

open Sys2Proof.Safety

/-! ### A request and an answer in DESEL_WAIT -/

/-- Accepting first: REENTRANT, after which the block does not act. -/
theorem performAll_accept_act_busy {release : Bool} {s : State} {r : Request} (hf : s.fault = .none)
    (hp : s.phase ≠ .idle) (hreq : s.req = some r) :
    performAll release [.accept, .act] s = .next (State.raise .reentrant { s with req := none }) := by
  have hact : perform release .act (State.raise .reentrant { s with req := none }) =
      .next (State.raise .reentrant { s with req := none }) :=
    congrArg Host.Outcome.next (act_disabled (canAct_eq_false (.inl (by simp))) release)
  exact performAll_cons_eq_next.mpr
    ⟨_, perform_accept_busy hf hreq hp release, performAll_cons_eq_next.mpr ⟨_, hact, rfl⟩⟩

/-- Acting first: the session finishes, and the request then begins its burst in IDLE. -/
theorem performAll_act_accept_deselWait {release : Bool} {s : State} {a : Answer TErr} {data : List Byte}
    (hf : s.fault = .none) (hp : s.phase = .deselWait) (ha : s.ans = some a) (hreq : s.req = some ⟨1, data⟩) :
    performAll release [.act, .accept] s = .next
      (State.beginBurst data
        (State.accepted .writeFrame data none
          (State.finish (some a) { s with ans := none, bus := releasedBus a }))) := by
  have hact : perform release .act s = .next (State.finish (some a) { s with ans := none, bus := releasedBus a }) := by
    rw [perform, act_deselWait hf hp ha, deselAnswered_eq]
  refine performAll_cons_eq_next.mpr ⟨_, hact, performAll_cons_eq_next.mpr ⟨_, ?accept, rfl⟩⟩
  case accept =>
    apply perform_writeFrame
    · exact hf
    · rfl
    · exact hreq

/-- Settles O54: the two orders, each with its end state. -/
theorem bothOrdersAdmitted : Obligations.BothOrdersAdmitted := by
  unfold Obligations.BothOrdersAdmitted
  intro release s a data hf hp ha hreq
  exact ⟨⟨_, performAll_accept_act_busy hf (by simp [hp]) hreq, rfl, hp, ha, rfl⟩,
    ⟨_, performAll_act_accept_deselWait hf hp ha hreq, hf, rfl, rfl, rfl⟩⟩

/-! ### Completion -/

/-- How many calls a session still has to have answered in a phase, at most. -/
def callsLeft : Phase → Nat
  | .idle => 0
  | .selWait => 3
  | .wrWait => 2
  | .deselWait => 1

/-- So many calls answered, each followed by a block step. -/
def answeredMoves : Nat → List Move
  | 0 => []
  | n + 1 => .answer :: .act :: answeredMoves n

/-- Fewer answered calls are part of more. -/
theorem answeredMoves_sublist {n k : Nat} (h : n ≤ k) : (answeredMoves n).Sublist (answeredMoves k) := by
  induction h with
  | refl => exact .refl _
  | step _ ih => exact (ih.cons _).cons _

/-- The moves that complete the session in progress: with an answer latched, the block's step on it comes first. -/
def movesLeft (s : State) : List Move :=
  match s.ans with
  | none => answeredMoves (callsLeft s.phase)
  | some _ => (answeredMoves (callsLeft s.phase)).tail

/-- The first of them. -/
def nextMove (s : State) : Move :=
  match s.ans with
  | none => .answer
  | some _ => .act

/-- Three answered calls are enough. -/
theorem movesLeft_sublist (s : State) : (movesLeft s).Sublist (answeredMoves 3) := by
  have hcalls : callsLeft s.phase ≤ 3 := by cases s.phase <;> decide
  unfold movesLeft
  split
  · exact answeredMoves_sublist hcalls
  · exact (List.tail_sublist _).trans (answeredMoves_sublist hcalls)

/-- A session in progress, without a fault and without a request latched. -/
structure Unfinished (s : State) : Prop where
  fault : s.fault = .none
  busy  : s.phase ≠ .idle
  req   : s.req = none

/-- A session that has completed with a response. -/
structure Finished (s : State) : Prop where
  fault : s.fault = .none
  phase : s.phase = .idle
  resp  : ∃ r, s.resp = some r

section

variable {s t : State}

/-- A session in progress has a next move. -/
theorem Unfinished.movesLeft_eq (h : Unfinished s) : movesLeft s = nextMove s :: (movesLeft s).tail := by
  have hcalls : ∃ n, callsLeft s.phase = n + 1 := by
    have hbusy := h.busy
    cases hp : s.phase with
    | idle => exact absurd hp hbusy
    | selWait | wrWait | deselWait => exact ⟨_, rfl⟩
  obtain ⟨n, hn⟩ := hcalls
  unfold movesLeft nextMove
  cases s.ans with
  | none | some => simp [hn, answeredMoves]

/-- That move is enabled. -/
theorem Unfinished.enabled_nextMove (h : Unfinished s) : enabled (nextMove s) s = true := by
  unfold nextMove
  cases ha : s.ans with
  | none => simp [enabled, State.outstanding, h.busy, ha]
  | some => simp [enabled, h.fault, h.busy, ha]

/-- A block step on an answer takes its place among the moves left, when the new phase has fewer calls left. -/
theorem movesLeft_sublist_tail {a : Answer TErr} (ha : s.ans = some a) (hans : t.ans = none)
    (hcalls : callsLeft t.phase < callsLeft s.phase) : (movesLeft t).Sublist (movesLeft s).tail := by
  obtain ⟨n, hn⟩ : ∃ n, callsLeft s.phase = n + 1 := ⟨_, (Nat.succ_pred_eq_of_pos (by omega)).symm⟩
  simp only [movesLeft, ha, hans, hn, answeredMoves, List.tail_cons]
  exact answeredMoves_sublist (by omega)

/-- Each move but the host's takes its place among the moves left, or leaves them for later. -/
theorem Unfinished.progress {release : Bool} {m : Move} {later : List Move} (h : Unfinished s)
    (he : Effect release s m t) (hm : m ≠ .post) (hleft : (movesLeft s).Sublist (m :: later)) :
    Finished t ∨ (Unfinished t ∧ (movesLeft t).Sublist later) := by
  have htail : (movesLeft s).tail.Sublist later := hleft.tail
  cases he with
  | stutter hdis =>
    refine .inr ⟨h, ?_⟩
    have hne : nextMove s ≠ m := fun heq => by simp [← heq, h.enabled_nextMove] at hdis
    rw [h.movesLeft_eq] at hleft ⊢
    exact hleft.of_cons_of_ne hne
  | respond hf hp hreq | fault hf hreq | begins hf hp hreq => exact absurd h.req hreq
  | posted => exact absurd rfl hm
  | answered ho =>
    obtain ⟨-, ha⟩ := (outstanding_iff s).mp ho
    refine .inr ⟨⟨h.fault, h.busy, h.req⟩, ?_⟩
    simpa [movesLeft, ha] using htail
  | selectOk hf hp ha | selectReleased hf hp ha | written hf hp ha =>
    refine .inr ⟨⟨h.fault, by simp [State.issue, waitPhase], h.req⟩, (movesLeft_sublist_tail ha rfl ?_).trans htail⟩
    simp [hp, callsLeft, State.issue, waitPhase]
  | selectAbandoned | deselected => exact .inl ⟨h.fault, rfl, _, rfl⟩

/-- Once the moves left are among those made, some first part of these completes the session. -/
theorem Unfinished.completes (release : Bool) {as : List (Action TErr)} (h : Unfinished s)
    (hpost : ∀ x ∈ as, ∀ r, x ≠ .post r) (hleft : (movesLeft s).Sublist (as.map moveOf)) :
    ∃ pre suf t, as = pre ++ suf ∧ performAll release pre s = .next t ∧ Finished t := by
  induction as generalizing s with
  | nil =>
    rw [h.movesLeft_eq] at hleft
    nomatch hleft
  | cons a as ih =>
    obtain ⟨u, hu⟩ := perform_has_next release a s
    obtain ⟨hposta, hpostas⟩ := List.forall_mem_cons.mp hpost
    have hm : moveOf a ≠ .post := by
      cases a with
      | post r => exact absurd rfl (hposta r)
      | accept | act | answer => simp [moveOf]
    rcases h.progress (effect_of_perform hu) hm hleft with hdone | ⟨hrest, hleft⟩
    · exact ⟨[a], as, u, rfl, performAll_cons_eq_next.mpr ⟨u, hu, rfl⟩, hdone⟩
    · obtain ⟨pre, suf, t, rfl, hrun, hdone⟩ := ih hrest hpostas hleft
      exact ⟨a :: pre, suf, t, rfl, performAll_cons_eq_next.mpr ⟨u, hu, hrun⟩, hdone⟩

end

/-- Settles O34: three answered calls hold the moves left (`movesLeft_sublist`). -/
theorem threeAnswersCompleteSession : Obligations.ThreeAnswersCompleteSession := by
  unfold Obligations.ThreeAnswersCompleteSession
  rintro release as s hf hp hreq hpost ⟨a1, a2, a3, hsub⟩
  have hleft : (movesLeft s).Sublist (as.map moveOf) := (movesLeft_sublist s).trans (hsub.map moveOf)
  obtain ⟨pre, suf, t, heq, hrun, hdone⟩ := Unfinished.completes release ⟨hf, hp, hreq⟩ hpost hleft
  exact ⟨pre, suf, t, heq, hrun, hdone.phase, hdone.fault, hdone.resp⟩

end Sys2Proof.Machine
end

section
/-! What no move reads (10_state.md section 5, its rule 36; 60_exceptions.md section 4, its rule 131): which branch a
move takes is decided by the fault, the phase and the two latches alone. -/

namespace Sys2Proof.Machine

open Sys2Proof.Safety

/-! ### The branches of a move -/

/-- What an accepted request does depends on the request alone: it drives a response, takes the sticky fault or begins a
burst, in every state the same. -/
theorem requestBody_uniform (r : Request) :
    (∃ resp, ∀ s : State, requestBody r { s with req := none } = State.respond resp { s with req := none }) ∨
    (∀ s : State, requestBody r { s with req := none } = State.raise .reservedOp { s with req := none }) ∨
    (∃ op data frame? frame, ∀ s : State,
      requestBody r { s with req := none } = (s.accepted op data frame?).beginBurst frame) := by
  unfold requestBody
  rcases decodeRequest_cases r with ⟨-, e⟩ | ⟨-, e⟩ | ⟨-, e⟩ | ⟨-, e⟩ <;> rw [e]
  · cases henc : enc r.data with
    | frame f => exact .inl ⟨encodedResponse f, fun s => by simp only [encodeBody, henc]; rfl⟩
    | lengthOverflow n => exact .inl ⟨overflowResponse n, fun s => by simp only [encodeBody, henc]; rfl⟩
  · exact .inr (.inr ⟨_, _, _, _, fun _ => rfl⟩)
  · cases henc : enc r.data with
    | frame f => exact .inr (.inr ⟨.sendCommand, r.data, some f, f, fun s => by simp only [sendBody, henc]; rfl⟩)
    | lengthOverflow n => exact .inl ⟨overflowResponse n, fun s => by simp only [sendBody, henc]; rfl⟩
  · exact .inr (.inl fun _ => rfl)

/-- The state changes that moves make. -/
inductive Branch : (State → State) → Prop
  | stutter : Branch id
  | respond (r : Response TErr) : Branch fun s => State.respond r { s with req := none }
  | fault (f : FaultCode) : Branch fun s => State.raise f { s with req := none }
  | begins (op : ReqOp) (data : List Byte) (frame? : Option (List Byte)) (frame : List Byte) :
      Branch fun s => (s.accepted op data frame?).beginBurst frame
  | selectOk : Branch fun s => State.issue (.write s.wbuf) { s with ans := none, bus := .acquired }
  | selectReleased (e : TErr) : Branch fun s => (s.selectFailed e).issue .deselect
  | selectAbandoned (e : TErr) : Branch fun s => (s.selectFailed e).finish none
  | written (a : Answer TErr) :
      Branch fun s => State.issue .deselect { s with ans := none, wrFail := (answerPayload a).or s.wrFail }
  | deselected (a : Answer TErr) : Branch fun s => State.finish (some a) { s with ans := none, bus := releasedBus a }
  | answered (a : Answer TErr) : Branch fun s => { s with ans := some a, trace := s.trace ++ [.answer a] }
  | posted (r : Request) : Branch fun s => { s with req := some r }

/-- Two states that agree in the fields by which a move's branch is chosen. -/
structure SameControl (s s' : State) : Prop where
  fault : s'.fault = s.fault
  phase : s'.phase = s.phase
  req   : s'.req = s.req
  ans   : s'.ans = s.ans

section

variable {s s' : State}

theorem SameControl.canAct (h : SameControl s s') : s'.canAct = s.canAct := by
  simp only [State.canAct, h.fault, h.phase, h.ans]

theorem SameControl.outstanding (h : SameControl s s') : s'.outstanding = s.outstanding := by
  simp only [State.outstanding, h.phase, h.ans]

/-- The branch of the accept move. -/
theorem perform_accept_branch (release : Bool) (s : State) :
    ∃ F, Branch F ∧ ∀ s', SameControl s s' → perform release .accept s' = .next (F s') := by
  by_cases hdis : s.fault ≠ .none ∨ s.req = none
  · exact ⟨id, .stutter, fun s' h => perform_accept_disabled (by rwa [h.fault, h.req]) release⟩
  obtain ⟨hf, hreq⟩ := not_or.mp hdis
  obtain ⟨r, hr⟩ := Option.ne_none_iff_exists'.mp hreq
  have hf' {s'} (h : SameControl s s') : s'.fault = .none := h.fault.trans (not_not.mp hf)
  have hr' {s'} (h : SameControl s s') : s'.req = some r := h.req.trans hr
  by_cases hp : s.phase = .idle
  · have hidle {s'} (h : SameControl s s') := perform_accept_idle (hf' h) (hr' h) (h.phase.trans hp) release
    rcases requestBody_uniform r with ⟨resp, e⟩ | e | ⟨op, data, frame?, frame, e⟩
    · exact ⟨_, .respond resp, fun s' h => e s' ▸ hidle h⟩
    · exact ⟨_, .fault .reservedOp, fun s' h => e s' ▸ hidle h⟩
    · exact ⟨_, .begins op data frame? frame, fun s' h => e s' ▸ hidle h⟩
  · exact ⟨_, .fault .reentrant, fun s' h => perform_accept_busy (hf' h) (hr' h) (h.phase ▸ hp) release⟩

/-- The branch of the block's step on an answer. -/
theorem act_branch (release : Bool) (s : State) :
    ∃ F, Branch F ∧ ∀ s', SameControl s s' → s'.act release = F s' := by
  rcases act_cases release s with ⟨hdis, -⟩ | ⟨hf, a, ha, ⟨hp, -⟩ | ⟨hp, -⟩ | ⟨hp, -⟩⟩
  · exact ⟨id, .stutter, fun s' h => act_disabled (h.canAct.trans hdis) release⟩
  · have hsel {s'} (h : SameControl s s') :=
      act_selWait (h.fault.trans hf) (h.phase.trans hp) (h.ans.trans ha) release
    cases a with
    | ok => exact ⟨_, .selectOk, fun s' h => hsel h⟩
    | err e =>
      cases release with
      | true => exact ⟨_, .selectReleased e, fun s' h => hsel h⟩
      | false => exact ⟨_, .selectAbandoned e, fun s' h => hsel h⟩
  · refine ⟨_, .written a, fun s' h => ?_⟩
    rw [act_wrWait (h.fault.trans hf) (h.phase.trans hp) (h.ans.trans ha), writeAnswered_eq]
  · refine ⟨_, .deselected a, fun s' h => ?_⟩
    rw [act_deselWait (h.fault.trans hf) (h.phase.trans hp) (h.ans.trans ha), deselAnswered_eq]

/-- Which state change a move makes depends on the fault, the phase and the latches alone. -/
theorem perform_branch (release : Bool) (a : Action TErr) (s : State) :
    ∃ F, Branch F ∧ ∀ s', SameControl s s' → perform release a s' = .next (F s') := by
  cases a with
  | accept => exact perform_accept_branch release s
  | act =>
    obtain ⟨F, hF, h⟩ := act_branch release s
    exact ⟨F, hF, fun s' hs' => congrArg Host.Outcome.next (h s' hs')⟩
  | answer x =>
    cases ho : s.outstanding with
    | true =>
      exact ⟨_, .answered x, fun s' h => congrArg Host.Outcome.next (answer_outstanding (h.outstanding.trans ho) x)⟩
    | false => exact ⟨_, .stutter, fun s' h => congrArg Host.Outcome.next (answer_none (h.outstanding.trans ho) x)⟩
  | post r =>
    by_cases hreq : s.req = none
    · exact ⟨_, .posted r, fun s' h => congrArg Host.Outcome.next (post_empty (h.req.trans hreq) r)⟩
    · exact ⟨_, .stutter, fun s' h => congrArg Host.Outcome.next (post_full (h.req ▸ hreq) r)⟩

end

/-! ### The last response and the bus record (R36) -/

/-- Every branch leaves the response and the bus record as they are or writes them anew, whatever they were. -/
theorem Branch.historyFree {F : State → State} (hF : Branch F) (s : State) :
    ∃ (t : State) (newResp : Option (Response TErr)) (newBus : Option BusState),
      ∀ resp bus, F (withHistory resp bus s) = withHistory (newResp.or resp) (newBus.getD bus) t := by
  cases hF with
  | stutter => exact ⟨s, none, none, fun _ _ => rfl⟩
  | respond r => exact ⟨State.respond r { s with req := none }, some r, none, fun _ _ => rfl⟩
  | fault f => exact ⟨State.raise f { s with req := none }, none, none, fun _ _ => rfl⟩
  | begins op data frame? frame =>
    exact ⟨(s.accepted op data frame?).beginBurst frame, none, none, fun _ _ => rfl⟩
  | selectOk =>
    exact ⟨State.issue (.write s.wbuf) { s with ans := none }, none, some .acquired, fun _ _ => rfl⟩
  | selectReleased e => exact ⟨(s.selectFailed e).issue .deselect, none, some .indeterminate, fun _ _ => rfl⟩
  | selectAbandoned e =>
    exact ⟨(s.selectFailed e).finish none, some (finishResponse none (s.selectFailed e)), some .indeterminate,
      fun _ _ => rfl⟩
  | written a =>
    exact ⟨State.issue .deselect { s with ans := none, wrFail := (answerPayload a).or s.wrFail }, none, none,
      fun _ _ => rfl⟩
  | deselected a =>
    exact ⟨State.finish (some a) { s with ans := none }, some (finishResponse (some a) { s with ans := none }),
      some (releasedBus a), fun _ _ => rfl⟩
  | answered a =>
    exact ⟨{ s with ans := some a, trace := s.trace ++ [.answer a] }, none, none, fun _ _ => rfl⟩
  | posted r => exact ⟨{ s with req := some r }, none, none, fun _ _ => rfl⟩

/-- One move reads neither. -/
theorem perform_historyFree (release : Bool) (a : Action TErr) (s : State) :
    ∃ (t : State) (newResp : Option (Response TErr)) (newBus : Option BusState), ∀ resp bus,
      perform release a (withHistory resp bus s) = .next (withHistory (newResp.or resp) (newBus.getD bus) t) := by
  obtain ⟨F, hF, h⟩ := perform_branch release a s
  obtain ⟨t, newResp, newBus, ht⟩ := hF.historyFree s
  exact ⟨t, newResp, newBus, fun resp bus => ht resp bus ▸ h _ ⟨rfl, rfl, rfl, rfl⟩⟩

/-- Nor do moves one after another: what the later ones write stands, else what the first one wrote. -/
theorem performAll_historyFree (release : Bool) (as : List (Action TErr)) (s : State) :
    ∃ (t : State) (newResp : Option (Response TErr)) (newBus : Option BusState), ∀ resp bus,
      performAll release as (withHistory resp bus s) = .next (withHistory (newResp.or resp) (newBus.getD bus) t) := by
  induction as generalizing s with
  | nil => exact ⟨s, none, none, fun _ _ => rfl⟩
  | cons a as ih =>
    obtain ⟨u, firstResp, firstBus, hfirst⟩ := perform_historyFree release a s
    obtain ⟨t, laterResp, laterBus, hlater⟩ := ih u
    refine ⟨t, laterResp.or firstResp, laterBus.or firstBus, fun resp bus => ?_⟩
    have hbus : (laterBus.or firstBus).getD bus = laterBus.getD (firstBus.getD bus) := by cases laterBus <;> rfl
    rw [Option.or_assoc, hbus]
    exact performAll_cons_eq_next.mpr ⟨_, hfirst resp bus, hlater _ _⟩

/-- Settles O52: move sequences by `performAll_historyFree`; a step is one move and the bookkeeping. -/
theorem historyIsNeverRead : Obligations.HistoryIsNeverRead := by
  unfold Obligations.HistoryIsNeverRead
  refine ⟨performAll_historyFree, fun s => ?step⟩
  case step =>
    obtain ⟨t, newResp, newBus, h⟩ := perform_historyFree Config.releaseOnSelectFail s.action s
    exact ⟨t.tick, newResp, newBus, fun resp bus => step_eq_next.mpr ⟨_, h resp bus, rfl⟩⟩

/-! ### The draws (R131) -/

/-- A state with other draws: whose turn it is, the draw counter, and the earlier events, by which draws are named. -/
def withDraws (turn : Move) (draws : Nat) (earlier : List (Event TErr)) (s : State) : State :=
  { s with turn := turn, draws := draws, trace := earlier }

/-- Every branch leaves the draws as they are, and appends the same events to whatever came earlier. -/
theorem Branch.drawFree {F : State → State} (hF : Branch F) (s : State) :
    ∃ (t : State) (new : List (Event TErr)),
      ∀ turn draws earlier, F (withDraws turn draws earlier s) = withDraws turn draws (earlier ++ new) t := by
  cases hF with
  | stutter => exact ⟨s, [], fun _ _ earlier => by rw [List.append_nil]; rfl⟩
  | respond r =>
    exact ⟨State.respond r { s with req := none }, [], fun _ _ earlier => by rw [List.append_nil]; rfl⟩
  | fault f => exact ⟨State.raise f { s with req := none }, [], fun _ _ earlier => by rw [List.append_nil]; rfl⟩
  | begins op data frame? frame =>
    exact ⟨(s.accepted op data frame?).beginBurst frame, [.issue .select], fun _ _ _ => rfl⟩
  | selectOk =>
    exact ⟨State.issue (.write s.wbuf) { s with ans := none, bus := .acquired }, [.issue (.write s.wbuf)],
      fun _ _ _ => rfl⟩
  | selectReleased e => exact ⟨(s.selectFailed e).issue .deselect, [.issue .deselect], fun _ _ _ => rfl⟩
  | selectAbandoned e =>
    exact ⟨(s.selectFailed e).finish none, [], fun _ _ earlier => by rw [List.append_nil]; rfl⟩
  | written a =>
    exact ⟨State.issue .deselect { s with ans := none, wrFail := (answerPayload a).or s.wrFail }, [.issue .deselect],
      fun _ _ _ => rfl⟩
  | deselected a =>
    exact ⟨State.finish (some a) { s with ans := none, bus := releasedBus a }, [],
      fun _ _ earlier => by rw [List.append_nil]; rfl⟩
  | answered a => exact ⟨{ s with ans := some a }, [.answer a], fun _ _ _ => rfl⟩
  | posted r => exact ⟨{ s with req := some r }, [], fun _ _ earlier => by rw [List.append_nil]; rfl⟩

/-- Settles O56: the branch of a move is chosen, and its state change made, without a look at the draws. -/
theorem movesDependOnNoDraw : Obligations.MovesDependOnNoDraw := by
  unfold Obligations.MovesDependOnNoDraw
  intro release a s
  obtain ⟨F, hF, h⟩ := perform_branch release a s
  obtain ⟨t, new, ht⟩ := hF.drawFree s
  refine ⟨t, new, fun turn draws earlier => ?_⟩
  exact (h (withDraws turn draws earlier s) ⟨rfl, rfl, rfl, rfl⟩).trans
    (congrArg Host.Outcome.next (ht turn draws earlier))

end Sys2Proof.Machine
end

section
/-! Failure values are passed on and never inspected (00_scope.md section 2, its rule 9): renaming them commutes with every
operation on the state, and so with every meaning and every move. -/

namespace Sys2Proof.Machine

open Sys2Proof.Safety

section

variable {E E' : Type} (f : E → E')

/-! ### The operations -/

theorem respond_rename (r : Response E) (s : State E) :
    (renameState f s).respond (renameResponse f r) = renameState f (s.respond r) := rfl

theorem issue_rename (c : Call) (s : State E) : (renameState f s).issue c = renameState f (s.issue c) := by
  simp [State.issue, renameState, renameEvent]

theorem beginBurst_rename (frame : List Byte) (s : State E) :
    (renameState f s).beginBurst frame = renameState f (s.beginBurst frame) :=
  issue_rename f .select { s with wbuf := burstOf frame }

theorem encodeBody_rename (pd : List Byte) (s : State E) :
    encodeBody pd (renameState f s) = renameState f (encodeBody pd s) := by
  unfold encodeBody
  cases enc pd with
  | frame | lengthOverflow => rfl

theorem writeFrameBody_rename (frame : List Byte) (s : State E) :
    writeFrameBody frame (renameState f s) = renameState f (writeFrameBody frame s) :=
  beginBurst_rename f frame (s.capture .writeFrame frame)

theorem sendBody_rename (pd : List Byte) (s : State E) :
    sendBody pd (renameState f s) = renameState f (sendBody pd s) := by
  unfold sendBody
  cases enc pd with
  | frame fr => exact beginBurst_rename f fr { s.capture .sendCommand pd with curFrame := some fr }
  | lengthOverflow => rfl

/-! ### The meanings -/

/-- A start step commutes with renaming when its body does. -/
theorem startStep_rename {body : State E → State E} {body' : State E' → State E'}
    (hbody : ∀ s, body' (renameState f s) = renameState f (body s)) (s : State E) :
    startStep body' (renameState f s) = mapOutcome (renameState f) (startStep body s) := by
  have hfault : (renameState f s).fault = s.fault := rfl
  have hphase : (renameState f s).phase = s.phase := rfl
  by_cases hf : s.fault = .none
  · by_cases hp : s.phase = .idle
    · rw [startStep_idle hf hp, startStep_idle (hfault.trans hf) (hphase.trans hp), hbody]
      rfl
    · rw [startStep_busy hf hp, startStep_busy (hfault.trans hf) (hphase ▸ hp)]
      rfl
  · rw [startStep_stopped hf, startStep_stopped (hfault ▸ hf)]
    rfl

/-- So does an accept step. -/
theorem acceptStep_rename {body : State E → State E} {body' : State E' → State E'}
    (hbody : ∀ s, body' (renameState f s) = renameState f (body s)) (s : State E) :
    acceptStep body' (renameState f s) = mapOutcome (renameState f) (acceptStep body s) :=
  startStep_rename f hbody { s with req := none }

theorem execEncode_rename (pd : List Byte) (s : State E) :
    execEncode pd (renameState f s) = mapOutcome (renameState f) (execEncode pd s) :=
  acceptStep_rename f (encodeBody_rename f pd) s

theorem execWriteFrame_rename (frame : List Byte) (s : State E) :
    execWriteFrame frame (renameState f s) = mapOutcome (renameState f) (execWriteFrame frame s) :=
  acceptStep_rename f (writeFrameBody_rename f frame) s

theorem execSendCommand_rename (pd : List Byte) (s : State E) :
    execSendCommand pd (renameState f s) = mapOutcome (renameState f) (execSendCommand pd s) :=
  acceptStep_rename f (sendBody_rename f pd) s

theorem execReserved_rename (data : List Byte) (s : State E) :
    execReserved data (renameState f s) = mapOutcome (renameState f) (execReserved data s) :=
  acceptStep_rename f (fun _ => rfl) s

theorem execGetFirmwareVersion_rename (c : Carrier) (s : State E) :
    execGetFirmwareVersion c (renameState f s) = mapOutcome (renameState f) (execGetFirmwareVersion c s) := by
  cases c with
  | encode => exact acceptStep_rename f (encodeBody_rename f _) s
  | sendCommand => exact acceptStep_rename f (sendBody_rename f _) s

theorem execSpiDataWrite_rename (frame : List Byte) (s : State E) :
    execSpiDataWrite frame (renameState f s) = mapOutcome (renameState f) (execSpiDataWrite frame s) :=
  startStep_rename f (beginBurst_rename f frame) s

/-! ### The sequencer and the transport -/

theorem answerPayload_rename (a : Answer E) : answerPayload (renameAnswer f a) = (answerPayload a).map f := by
  cases a with
  | ok | err => rfl

theorem releasedBus_rename (a : Answer E) : releasedBus (renameAnswer f a) = releasedBus a := by
  cases a with
  | ok | err => rfl

theorem firstFailure_rename (selFail wrFail deselFail : Option E) :
    firstFailure (selFail.map f) (wrFail.map f) (deselFail.map f) =
      ((firstFailure selFail wrFail deselFail).1, (firstFailure selFail wrFail deselFail).2.map f) := by
  cases selFail <;> cases wrFail <;> cases deselFail <;> rfl

/-- FINISH's response passes the failure values on. -/
theorem finishResponse_rename (d : Option (Answer E)) (s : State E) :
    finishResponse (d.map (renameAnswer f)) (renameState f s) = renameResponse f (finishResponse d s) := by
  have hd : (d.map (renameAnswer f)).bind answerPayload = (d.bind answerPayload).map f := by
    cases d with
    | none => rfl
    | some a => exact answerPayload_rename f a
  simp only [finishResponse, hd, renameState, renameResponse, firstFailure_rename, Option.isSome_map, apply_ite,
    Option.map_none]

theorem finish_rename (d : Option (Answer E)) (s : State E) :
    (renameState f s).finish (d.map (renameAnswer f)) = renameState f (s.finish d) := by
  rw [State.finish, finishResponse_rename, respond_rename, State.finish]

theorem selAnswered_rename (release : Bool) (a : Answer E) (s : State E) :
    selAnswered release (renameAnswer f a) (renameState f s) = renameState f (selAnswered release a s) := by
  cases a with
  | ok => exact issue_rename f (.write s.wbuf) { s with ans := none, bus := .acquired }
  | err e =>
    cases release with
    | true => exact issue_rename f .deselect (s.selectFailed e)
    | false => exact finish_rename f none (s.selectFailed e)

theorem writeAnswered_rename (a : Answer E) (s : State E) :
    writeAnswered (renameAnswer f a) (renameState f s) = renameState f (writeAnswered a s) := by
  cases a with
  | ok => exact issue_rename f .deselect { s with ans := none }
  | err e => exact issue_rename f .deselect { s with ans := none, wrFail := some e }

theorem deselAnswered_rename (a : Answer E) (s : State E) :
    deselAnswered (renameAnswer f a) (renameState f s) = renameState f (deselAnswered a s) := by
  cases a with
  | ok => exact finish_rename f (some .ok) { s with ans := none, bus := .released }
  | err e => exact finish_rename f (some (.err e)) { s with ans := none, bus := .indeterminate }

theorem canAct_rename (s : State E) : (renameState f s).canAct = s.canAct :=
  congrArg (decide (s.fault = .none) && decide (s.phase ≠ .idle) && ·) Option.isSome_map

theorem outstanding_rename (s : State E) : (renameState f s).outstanding = s.outstanding :=
  congrArg (decide (s.phase ≠ .idle) && ·) Option.isNone_map

/-- The block's step on an answer. -/
theorem act_rename (release : Bool) (s : State E) :
    (renameState f s).act release = renameState f (s.act release) := by
  rcases act_cases release s with ⟨hdis, e⟩ | ⟨hf, a, ha, hphase⟩
  · rw [e, act_disabled ((canAct_rename f s).trans hdis)]
  · have ha' : (renameState f s).ans = some (renameAnswer f a) := congrArg (Option.map (renameAnswer f)) ha
    have hf' : (renameState f s).fault = .none := hf
    rcases hphase with ⟨hp, e⟩ | ⟨hp, e⟩ | ⟨hp, e⟩ <;> rw [e]
    · exact (act_selWait hf' hp ha' release).trans (selAnswered_rename f release a s)
    · exact (act_wrWait hf' hp ha' release).trans (writeAnswered_rename f a s)
    · exact (act_deselWait hf' hp ha' release).trans (deselAnswered_rename f a s)

/-- The transport's answer. -/
theorem answer_rename (a : Answer E) (s : State E) :
    (renameState f s).answer (renameAnswer f a) = renameState f (s.answer a) := by
  cases ho : s.outstanding with
  | true =>
    rw [answer_outstanding ho, answer_outstanding ((outstanding_rename f s).trans ho)]
    simp [renameState, renameEvent]
  | false => rw [answer_none ho, answer_none ((outstanding_rename f s).trans ho)]

/-- The host's write. -/
theorem post_rename (r : Request) (s : State E) : (renameState f s).post r = renameState f (s.post r) := by
  have heq : (renameState f s).req = s.req := rfl
  by_cases hreq : s.req = none
  · rw [post_empty hreq, post_empty (heq.trans hreq)]
    rfl
  · rw [post_full hreq, post_full (heq ▸ hreq)]

end

/-! ### Every move -/

/-- A meaning at the configuration's failure type. -/
theorem exec_rename (f : TErr → TErr) (i : Instr) (s : State) :
    exec i (renameState f s) = mapOutcome (renameState f) (exec i s) := by
  cases i with
  | encode pd => exact execEncode_rename f pd s
  | writeFrame frame => exact execWriteFrame_rename f frame s
  | sendCommand pd => exact execSendCommand_rename f pd s
  | reserved data => exact execReserved_rename f data s
  | getFirmwareVersion c => exact execGetFirmwareVersion_rename f c s
  | spiDataWrite frame => exact execSpiDataWrite_rename f frame s

theorem perform_rename (f : TErr → TErr) (release : Bool) (a : Action TErr) (s : State) :
    perform release (renameAction f a) (renameState f s) = mapOutcome (renameState f) (perform release a s) := by
  cases a with
  | accept =>
    have hfetch : (renameState f s).fetch = s.fetch := rfl
    cases h : s.fetch with
    | none => simp only [renameAction, perform, hfetch, h, mapOutcome]
    | some i => simp only [renameAction, perform, hfetch, h, exec_rename]
  | act => exact congrArg Host.Outcome.next (act_rename f release s)
  | answer x => exact congrArg Host.Outcome.next (answer_rename f x s)
  | post r => exact congrArg Host.Outcome.next (post_rename f r s)

/-- Settles O53: one commutation lemma for each meaning and move. -/
theorem failureValuesNeverInspected : Obligations.FailureValuesNeverInspected := by
  unfold Obligations.FailureValuesNeverInspected
  exact ⟨fun E E' f s => ⟨fun data => execEncode_rename f data s, fun data => execWriteFrame_rename f data s,
    fun data => execSendCommand_rename f data s, fun data => execReserved_rename f data s,
    fun c => execGetFirmwareVersion_rename f c s, fun data => execSpiDataWrite_rename f data s,
    fun release => act_rename f release s, fun a => answer_rename f a s⟩, perform_rename⟩

end Sys2Proof.Machine
end
